-- ==== Sys2Proof/Word.lean ====
section
/-! DEFINITION. Word: the byte and the 16-bit field that cross the part's links. -/

namespace Sys2Proof

/-- One byte of a link or of staging memory. -/
abbrev Byte := BitVec 8

/-- A two-byte field taken as one word: a job tag, a station id, a CRC. -/
abbrev Word16 := BitVec 16

end Sys2Proof
end

