-- ==== Sys2Proof/Config.lean ====
section
/-! DEFINITION. Config: what the part fixes. The spec leaves no value of an operation open, so there is no free value
here: every capacity, identity code and time below is a number the spec states. -/

namespace Sys2Proof

/-- A lane, 0 to 7 (00_scope, 0.4). -/
abbrev LaneId := Fin 8

/-- A context record, 0 to 47 (R8). -/
abbrev CtxId := Fin 48

/-- A priority class, 0 URGENT to 3 BULK; the lower number is the higher priority (00_scope, 0.4). -/
abbrev ClassId := Fin 4

/-- An entry of the segment pool, 0 to 511 (R5). -/
abbrev PoolId := Fin 512

/-- A page of staging memory, 0 to 63 (R26). -/
abbrev PageId := Fin 64

/-- A job tag; 0 means no job (00_scope, 0.4). -/
abbrev Tag := Word16

namespace Config

/-- Bytes of staging memory (R26). -/
def stagingBytes : Nat := 131072

/-- Bytes of one page (R26). -/
def pageBytes : Nat := 2048

/-- Largest segment (R1). -/
def maxSegmentBytes : Nat := 8192

/-- Most segments of one job (R18). -/
def maxSegments : Nat := 32

/-- Most data bytes of one WRITE or READ (R27, R29). -/
def maxTransfer : Nat := 512

/-- Entries of one return list (R145). -/
def returnCapacity : Nat := 32

/-- Notices the Notice Queue holds (R157). -/
def noticeCapacity : Nat := 64

/-- Notices that may be sent and not acknowledged (R157). -/
def noticeWindow : Nat := 8

/-- Requests the holding list holds (R170). -/
def holdingCapacity : Nat := 4

/-- Records the reply memory holds (R172). -/
def memoryCapacity : Nat := 4

/-- Value at which the lost count and the retransmission total hold (R105, R157). -/
def counterCeiling : Nat := 65535

/-- Largest window a station may report (R92). -/
def maxWindow : Nat := 8

/-- Largest body of a REPLY (R83). -/
def maxReplyBody : Nat := 64

/-- Milliseconds between PROBEs (R90). -/
def probeInterval : Nat := 10

/-- PROBEs of one synchronisation (R91). -/
def maxProbes : Nat := 16

/-- The start marker of both links (R180). -/
def marker : Byte := 0x7E

/-- IDENTIFY's vendor code, part code and revision (R175). -/
def vendorCode : Word16 := 0x5047
def partCode : Word16 := 0x0848
def revision : Byte := 3

end Config
end Sys2Proof
end

