-- ==== Sys2Proof/Syntax.lean ====
section
/-! DEFINITION. Syntax: the commands of the block, one constructor per row of spec/opcode_table.json.

The rows are the part's steps, each whole and indivisible (95_what_each_step_holds): a request as the Request Decoder
takes it, an event of the host link, a reset, a well-formed station frame as the Lane Receiver hands it on, a timer
expiry, or a step of a lane's transmitter. A request's operands are its sequence number and its body byte for byte, so
that a body of a wrong length is a command like any other. -/

namespace Sys2Proof

inductive Instr where
  /-- IDENTIFY taken by the Request Decoder (R175). -/
  | identify (seq : Byte) (body : List Byte)
  /-- RESET request taken (R176). -/
  | reset (seq : Byte) (body : List Byte)
  /-- WRITE taken (R27, R28): offset (4), data. -/
  | write (seq : Byte) (body : List Byte)
  /-- READ taken (R29): offset (4), length (2). -/
  | read (seq : Byte) (body : List Byte)
  /-- PIN_MAP taken (R35). -/
  | pinMap (seq : Byte) (body : List Byte)
  /-- SUBMIT taken (R17 to R19): lane, class, tag (2), count, descriptors of 7 bytes. -/
  | submit (seq : Byte) (body : List Byte)
  /-- SUSPEND taken (R62 to R66): tag (2). -/
  | suspend (seq : Byte) (body : List Byte)
  /-- RESUME taken (R70, R71): tag (2). -/
  | resume (seq : Byte) (body : List Byte)
  /-- ABORT taken (R72 to R74): tag (2). -/
  | abort (seq : Byte) (body : List Byte)
  /-- JOB_STATUS taken (R24): tag (2). -/
  | jobStatus (seq : Byte) (body : List Byte)
  /-- LANE_CONFIG taken (R88): lane and five settings, 7 bytes. -/
  | laneConfig (seq : Byte) (body : List Byte)
  /-- LANE_OPEN taken (R90): lane. -/
  | laneOpen (seq : Byte) (body : List Byte)
  /-- LANE_RESET taken (R101): lane. -/
  | laneReset (seq : Byte) (body : List Byte)
  /-- LANE_STATUS taken (R103): lane. -/
  | laneStatus (seq : Byte) (body : List Byte)
  /-- FETCH taken (R151): lane. -/
  | fetch (seq : Byte) (body : List Byte)
  /-- ACK_NOTICES taken (R161): notice sequence number. -/
  | ackNotices (seq : Byte) (body : List Byte)
  /-- REWIND_NOTICES taken (R163). -/
  | rewindNotices (seq : Byte) (body : List Byte)
  /-- A request whose kind is not in the catalogue taken (R171). -/
  | unknownKindRequest (seq : Byte) (kind : Byte) (body : List Byte)
  /-- Bytes arrive on HRXD with no gap of more than 5 ms before or between them; every frame they complete joins the
  holding list (R168, R169, R170). -/
  | hostFrameReceived (bytes : List Byte)
  /-- More than 5 ms pass since the last byte of the frame being collected (R169). -/
  | gapDiscard
  /-- The free outbound transmitter begins the oldest pending reply (R174). -/
  | replySend
  /-- The last byte of a reply frame is sent (R174). -/
  | replySent
  /-- The free outbound transmitter begins the offered notice (R160). -/
  | noticeSend
  /-- The last byte of a RESET's reply is sent and the part reset is taken; the operand is the level of BAUD1 and BAUD0
  sampled (R177). -/
  | hostRequestReset (straps : BitVec 2)
  /-- Power is applied; the operand is the level of the straps (R178). -/
  | powerOn (straps : BitVec 2)
  /-- RESETN goes low (R178). -/
  | resetnLow
  /-- RESETN returns high; the operand is the level of the straps (R178). -/
  | resetPin (straps : BitVec 2)
  /-- A well-formed HELLO is handed on (R92, R93, R137). -/
  | hello (lane : LaneId) (window : Byte) (stationId : Word16)
  /-- A well-formed ACK is handed on (R115, R118). -/
  | ack (lane : LaneId) (n : Byte)
  /-- A well-formed NAK is handed on (R119, R120). -/
  | nak (lane : LaneId) (n : Byte)
  /-- A well-formed HOLD is handed on (R95). -/
  | hold (lane : LaneId)
  /-- A well-formed READY is handed on (R97). -/
  | ready (lane : LaneId)
  /-- A well-formed REPLY is handed on (R147 to R149); the first operand is the whole byte that carries the reply bit
  (R185). -/
  | reply (lane : LaneId) (bitByte : Byte) (tag : Tag) (code : Byte) (body : List Byte)
  /-- Bytes arrive on a lane's receive pair and the Lane Receiver discards what it must (R83). -/
  | laneFrameDiscard (lane : LaneId) (bytes : List Byte)
  /-- The probe timer expires (R91). -/
  | probeTimerExpiry (lane : LaneId)
  /-- The hold timer expires (R98). -/
  | holdTimerExpiry (lane : LaneId)
  /-- The ack timer expires (R114). -/
  | ackTimerExpiry (lane : LaneId)
  /-- The Lane Transmitter cuts the running job's next DATA frame (R108). -/
  | dataCut (lane : LaneId)
  /-- The Lane Transmitter cuts the head of the cancel list (R111). -/
  | cancelCut (lane : LaneId)
  /-- The transmit pair falls free and the next waiting frame begins (R82). -/
  | laneFrameSend (lane : LaneId)
  /-- The last byte of a notice frame is sent (R174). -/
  | noticeFrameEnd
  deriving DecidableEq, Repr

end Sys2Proof
end

