-- ==== Sys2Proof/Decode.lean ====
section
/-! DEFINITION. Decode: the command a table word spells. No row of spec/opcode_table.json gives bits (98_reader.md,
n_rows_with_fixed 0 and n_rows_with_fields 0): the block takes commands, not encoded instructions, so no word spells
one. The bytes of the part's links are read in Machine/Operands.lean. -/

namespace Sys2Proof

/-- The command spelled by the `nbits` bits of `w`: none, since no row has bits. -/
def decodeTableWord (_nbits _w : Nat) : Option Instr := none

end Sys2Proof
end

