-- ==== Sys2Proof/Machine/State.lean ====
section
/-! DEFINITION. State: every piece of state the spec gives the part, as plain data, and its value after a power-on reset. -/

namespace Sys2Proof.Machine

/-! ### Jobs (chapter 1) -/

/-- The seven states of a context (R9). -/
inductive JobState where
  | free | queued | running | preempted | suspended | draining | aborting
  deriving DecidableEq, Repr

/-- One entry of the segment pool (R1, R6). -/
structure Segment where
  /-- staging memory offset of the first byte -/
  offset : Nat := 0
  length : Nat := 0
  notifyFlag : Bool := false
  bindFlag : Bool := false
  /-- the entry of the job's next segment -/
  link : Option PoolId := none
  deriving DecidableEq, Repr

/-- One context record; the defaults are the cleared values (R8). -/
structure Context where
  state : JobState := .free
  tag : Tag := 0
  lane : LaneId := 0
  cls : ClassId := 0
  segCount : Nat := 0
  /-- the job's pool entries in index order -/
  segs : List PoolId := []
  /-- index of the next segment to be cut -/
  sent : Nat := 0
  /-- index of the next frame to be cut within that segment -/
  cut : Nat := 0
  /-- leading segments acknowledged -/
  acked : Nat := 0
  /-- segments below this are cut with RESENT -/
  resend : Nat := 0
  started : Bool := false
  suspendPending : Bool := false
  /-- the return link -/
  link : Option CtxId := none
  deriving DecidableEq, Repr

/-! ### One lane: Lane Scheduler (R38) -/

structure Scheduler where
  /-- the ready queue of each class, head first -/
  ready : Vector (List CtxId) 4
  /-- the running slot -/
  running : Option CtxId
  /-- the resume point -/
  resume : Option CtxId
  deriving DecidableEq, Repr

/-! ### One lane: Lane Transmitter (R105, R106) -/

/-- The four flags of a DATA frame (R109). -/
structure DataFlags where
  first : Bool := false
  last : Bool := false
  endOfJob : Bool := false
  resent : Bool := false
  deriving DecidableEq, Repr

/-- What an in-flight entry records of its frame (R106). -/
inductive SentFrame where
  | data (segment frame : Nat) (flags : DataFlags)
  | cancel
  deriving DecidableEq, Repr

/-- One entry of the in-flight list (R106). -/
structure InFlight where
  seq : BitVec 4
  ctx : CtxId
  what : SentFrame
  deriving DecidableEq, Repr

/-- One entry of the cancel list (R75). -/
structure CancelEntry where
  ctx : CtxId
  tag : Tag
  deriving DecidableEq, Repr

structure Transmitter where
  inFlight : List InFlight
  nextSeq : BitVec 4
  cancels : List CancelEntry
  /-- running with the milliseconds it was started with, or stopped -/
  ackTimer : Option Nat
  retry : Nat
  /-- the sequence number of the in-flight entry the deferred retransmission point names -/
  deferred : Option (BitVec 4)
  retxTotal : Nat
  deriving DecidableEq, Repr

/-! ### One lane: Lane Controller (R85, R86, R88) -/

inductive LaneState where
  | down | syncing | up | held | fault
  deriving DecidableEq, Repr

inductive FaultCause where
  | none | noStation | retryLimit | holdLimit
  deriving DecidableEq, Repr

inductive NotifyPolicy where
  | flagged | all | none
  deriving DecidableEq, Repr

/-- The five settings; the defaults are those of R88. -/
structure LaneConfig where
  /-- milliseconds -/
  ackTimeout : Nat := 20
  retryLimit : Nat := 3
  /-- seconds; 0 is unlimited -/
  holdLimit : Nat := 0
  payloadSize : Nat := 256
  policy : NotifyPolicy := .flagged
  deriving DecidableEq, Repr

structure Controller where
  state : LaneState
  lastFault : FaultCause
  config : LaneConfig
  window : Nat
  stationId : Word16
  probeCount : Nat
  /-- running with the milliseconds it was started with, or stopped -/
  probeTimer : Option Nat
  /-- running with the seconds it was started with, or stopped -/
  holdTimer : Option Nat
  deriving DecidableEq, Repr

/-! ### One lane: Lane Receiver, transmit pair, return list (R83, R82, R145) -/

structure Receiver where
  /-- the last accepted reply bit -/
  lastBit : Option Bool
  /-- the bytes received since the start marker of the frame being assembled; empty while hunting -/
  rx : List Byte
  deriving DecidableEq, Repr

/-- The five frames the part sends on a lane, with their fields (R185). -/
inductive LaneFrame where
  | probe
  | data (seq : BitVec 4) (tag : Tag) (segment frame : Nat) (flags : DataFlags) (payload : List Byte)
  | cancel (seq : BitVec 4) (tag : Tag)
  | rack (bit : Bool)
  | rnak (bit : Bool)
  deriving DecidableEq, Repr

/-- A formed frame of the Lane Transmitter that waits for the pair, and the in-flight entry it is a copy of (none once an
ACK has removed that entry). -/
structure WaitingFrame where
  frame : LaneFrame
  copyOf : Option (BitVec 4)
  deriving DecidableEq, Repr

/-- The transmit pair and what waits for it (R82). -/
structure TxPair where
  /-- the bytes of the frame being sent -/
  sending : Option (List Byte)
  /-- RACK and RNAK waiting, oldest first -/
  answers : List LaneFrame
  /-- PROBEs waiting; every PROBE is the same four bytes -/
  probes : Nat
  /-- frames of the Lane Transmitter waiting, in the order formed -/
  frames : List WaitingFrame
  deriving DecidableEq, Repr

/-- One return; its body length is the length of the body (R145). -/
structure Return where
  tag : Tag
  code : Byte
  body : List Byte
  deriving DecidableEq, Repr

structure Lane where
  sched : Scheduler
  tx : Transmitter
  ctl : Controller
  rcv : Receiver
  pair : TxPair
  returns : List Return
  deriving DecidableEq, Repr

/-- A Lane Scheduler after every part reset and after LANE_RESET (R61). -/
def Scheduler.empty : Scheduler := ⟨Vector.replicate 4 [], none, none⟩

/-- A Lane Transmitter after every part reset and after LANE_RESET (R105, R128). -/
def Transmitter.initial : Transmitter := ⟨[], 0, [], none, 0, none, 0⟩

/-- A Lane Controller after every part reset (R85, R104). -/
def Controller.initial : Controller := ⟨.down, .none, {}, 0, 0, 0, none, none⟩

/-- A Lane Receiver after every part reset and after LANE_RESET (R104, R155). -/
def Receiver.initial : Receiver := ⟨none, []⟩

/-- A transmit pair with nothing on it and nothing waiting. -/
def TxPair.idle : TxPair := ⟨none, [], 0, []⟩

/-- A lane after every part reset (R61, R104, R128, R155). -/
def Lane.initial : Lane :=
  ⟨Scheduler.empty, Transmitter.initial, Controller.initial, Receiver.initial, TxPair.idle, []⟩

/-! ### Notices (chapter 9) -/

inductive ResetCause where
  | powerOn | resetPin | hostRequest
  deriving DecidableEq, Repr

/-- JOB_END reasons (R21). -/
inductive EndReason where
  | completed | aborted | laneReset | stationRestart
  deriving DecidableEq, Repr

/-- LANE_STATE causes (R87). -/
inductive LaneCause where
  | opened | hello | hold | ready | noStation | retryLimit | holdLimit | laneReset | stationRestart
  deriving DecidableEq, Repr

/-- The seven kinds of notice with their fields (R156). -/
inductive NoticeBody where
  | ready (cause : ResetCause)
  | jobEnd (tag : Tag) (lane : LaneId) (reason : EndReason) (completed : Nat)
  | segmentDone (tag : Tag) (lane : LaneId) (segment : Nat)
  | jobSuspended (tag : Tag) (lane : LaneId) (next : Nat)
  | laneState (lane : LaneId) (state : LaneState) (cause : LaneCause)
  | returnReady (lane : LaneId)
  | overflow (lost : Nat)
  deriving DecidableEq, Repr

structure Notice where
  seq : BitVec 8
  body : NoticeBody
  sent : Bool
  deriving DecidableEq, Repr

structure NoticeQueue where
  /-- oldest first -/
  items : List Notice
  nextSeq : BitVec 8
  sentCount : Nat
  lost : Nat
  deriving DecidableEq, Repr

/-- The Notice Queue after a part reset: READY alone, as notice 0 (R157, R165, R166). -/
def NoticeQueue.afterReset (cause : ResetCause) : NoticeQueue := ⟨[⟨0, .ready cause, false⟩], 1, 0, 0⟩

/-! ### The host link (chapter 10) -/

structure Request where
  seq : Byte
  kind : Byte
  body : List Byte
  deriving DecidableEq, Repr

/-- An entry of the request holding list; `taken` once the Request Decoder has taken it (R170, R171). -/
structure Held where
  req : Request
  taken : Bool
  deriving DecidableEq, Repr

/-- The seq, kind and body of a host link frame the part sends (R181). -/
structure HostFrame where
  seq : Byte
  kind : Byte
  body : List Byte
  deriving DecidableEq, Repr

/-- A record of the reply memory (R172). -/
structure Record where
  seq : Byte
  kind : Byte
  reply : HostFrame
  deriving DecidableEq, Repr

/-- A pending reply; `resets` marks the OK reply of a RESET request (R174, R176). -/
structure PendingReply where
  frame : HostFrame
  resets : Bool
  deriving DecidableEq, Repr

/-- The outbound transmitter: idle, or the bytes of the frame on HTXD (R174). -/
inductive OutTx where
  | idle
  | reply (bytes : List Byte) (resets : Bool)
  | notice (bytes : List Byte)
  deriving DecidableEq, Repr

structure HostLink where
  /-- BAUD1 (high bit) and BAUD0 as sampled at the last part reset (R167) -/
  straps : BitVec 2
  /-- the receive hunter: empty while HUNTING, else COLLECTING the bytes from the start marker on (R168) -/
  hunter : List Byte
  holding : List Held
  memory : List Record
  replies : List PendingReply
  out : OutTx
  deriving DecidableEq, Repr

/-- The Host Link after a part reset (R179). -/
def HostLink.afterReset (straps : BitVec 2) : HostLink := ⟨straps, [], [], [], [], .idle⟩

/-! ### The whole part -/

/-- Staging memory: the bytes that are not 0, addresses strictly rising; an address not listed reads 0, the value of every
byte after power-on (R36). -/
abbrev Memory := List Host.Cell

structure State where
  /-- the Context Table (R8) -/
  ctxs : Vector Context 48
  /-- the segment pool (R5) -/
  pool : Vector Segment 512
  /-- the pool's free list, head first (R5) -/
  freeList : List PoolId
  /-- staging memory (R26) -/
  mem : Memory
  /-- the Page Pin Table (R31) -/
  pins : Vector Nat 64
  lanes : Vector Lane 8
  notices : NoticeQueue
  host : HostLink
  /-- RESETN is low: the part is held in reset (R178) -/
  heldInReset : Bool
  /-- power was applied while RESETN was low: the reset due is a power-on reset (R178) -/
  powerOnDue : Bool
  /-- the commands that wait, first in, first out (the model's own queue) -/
  pending : List Instr
  deriving DecidableEq, Repr

/-- Why the part would stop. No rule of the spec stops the part: both reasons need a record that no run from reset
holds. -/
inductive Fault where
  /-- Raised by a cut or a retransmission whose payload lies beyond the 131072 bytes of staging memory (R26). Safe: every
  admitted segment lies inside (R2). -/
  | noSuchByte
  /-- Raised by a cut or a retransmission that names a segment its job does not have (R106, R108). Safe: a RUNNING job's
  sent position is below its segment count. -/
  | noSuchSegment
  deriving DecidableEq, Repr

/-- Why the model would give a command no meaning. -/
inductive Refusal where
  /-- Raised by an arm of exec for a row without a meaning. Safe; no arm raises it. -/
  | notModelled (mnemonic : String)
  deriving DecidableEq, Repr

/-- The part right after a power-on reset (R25, R36, R37, R61, R81, R104, R128, R155, R166, R179). DESIGN CHOICE: both straps
low (log 11) and every pool entry cleared (log 22). -/
def State.reset : State where
  ctxs := Vector.replicate 48 {}
  pool := Vector.replicate 512 {}
  freeList := List.finRange 512
  mem := []
  pins := Vector.replicate 64 0
  lanes := Vector.replicate 8 Lane.initial
  notices := NoticeQueue.afterReset .powerOn
  host := HostLink.afterReset 0
  heldInReset := false
  powerOnDue := false
  pending := []

end Sys2Proof.Machine
end

