-- ==== Sys2Proof/Machine/Flags.lean ====
section
/-! DEFINITION. Flags: the codes and flag bytes that the part carries inside its frames and bodies (R186). -/

namespace Sys2Proof.Machine

/-- The status codes of a reply (R186). -/
inductive Status where
  | ok | pending | unknownKind | badLength | badLane | badValue | badSegment | outOfRange | pinned | tagInUse | noSuchJob
  | noContext | noSegments | wrongState | empty
  deriving DecidableEq, Repr

def statusCode : Status → Byte
  | .ok => 0
  | .pending => 1
  | .unknownKind => 2
  | .badLength => 3
  | .badLane => 4
  | .badValue => 5
  | .badSegment => 6
  | .outOfRange => 7
  | .pinned => 8
  | .tagInUse => 9
  | .noSuchJob => 10
  | .noContext => 11
  | .noSegments => 12
  | .wrongState => 13
  | .empty => 14

/-- Context state codes (R9, R186). -/
def jobStateCode : JobState → Byte
  | .free => 0
  | .queued => 1
  | .running => 2
  | .preempted => 3
  | .suspended => 4
  | .draining => 5
  | .aborting => 6

/-- Lane state codes (R86, R186). -/
def laneStateCode : LaneState → Byte
  | .down => 0
  | .syncing => 1
  | .up => 2
  | .held => 3
  | .fault => 4

/-- Last fault cause codes (R85, R186). -/
def faultCauseCode : FaultCause → Byte
  | .none => 0
  | .noStation => 1
  | .retryLimit => 2
  | .holdLimit => 3

/-- LANE_STATE cause codes (R87, R186). -/
def laneCauseCode : LaneCause → Byte
  | .opened => 0
  | .hello => 1
  | .hold => 2
  | .ready => 3
  | .noStation => 4
  | .retryLimit => 5
  | .holdLimit => 6
  | .laneReset => 7
  | .stationRestart => 8

/-- JOB_END reason codes (R21, R186). -/
def endReasonCode : EndReason → Byte
  | .completed => 0
  | .aborted => 1
  | .laneReset => 2
  | .stationRestart => 3

/-- READY reset cause codes (R156, R186). -/
def resetCauseCode : ResetCause → Byte
  | .powerOn => 0
  | .resetPin => 1
  | .hostRequest => 2

/-- Notify policy codes (R88, R186). -/
def policyCode : NotifyPolicy → Byte
  | .flagged => 0
  | .all => 1
  | .none => 2

/-- The notify policy a code names; none above 2 (R88). -/
def policyOfCode (b : Byte) : Option NotifyPolicy :=
  if b = 0 then some .flagged else if b = 1 then some .all else if b = 2 then some .none else none

/-- The flags byte of a DATA frame: 0x01 FIRST, 0x02 LAST, 0x04 END, 0x08 RESENT, the other bits 0 (R185). -/
def dataFlagsByte (f : DataFlags) : Byte :=
  (if f.first then 0x01 else 0) ||| (if f.last then 0x02 else 0) ||| (if f.endOfJob then 0x04 else 0) |||
    (if f.resent then 0x08 else 0)

/-- The flags byte of a JOB_STATUS reply: 0x01 suspend pending, 0x02 started (R183). -/
def jobFlagsByte (c : Context) : Byte :=
  (if c.suspendPending then 0x01 else 0) ||| (if c.started then 0x02 else 0)

/-- The byte of a 1-bit field: the upper bits are 0 (R185). -/
def bitByte (b : Bool) : Byte := if b then 1 else 0

/-- Whether a completing segment posts SEGMENT_DONE under a notify policy (R4, R116). -/
def policyReports : NotifyPolicy → Bool → Bool
  | .all, _ => true
  | .flagged, notifyFlag => notifyFlag
  | .none, _ => false

end Sys2Proof.Machine
end

