-- ==== Sys2Proof/WellFormed.lean ====
section
/-! DEFINITION. WellFormed: which commands the part's own links can carry. -/

namespace Sys2Proof

/-- The seventeen request kinds of the catalogue (R171, 10.6). -/
def requestKinds : List Byte :=
  [0x01, 0x02, 0x10, 0x11, 0x12, 0x20, 0x21, 0x22, 0x23, 0x24, 0x30, 0x31, 0x32, 0x33, 0x40, 0x50, 0x51]

/-- A request body is 0 to 520 bytes (R181). -/
def bodyFits (body : List Byte) : Bool := body.length ≤ 520

/-- What the links can carry: a request body fits its frame (R181), an unknown kind is none of the catalogue (R171), and
a REPLY that is handed on has a body of at most 64 bytes (R83). -/
def Instr.wellFormed : Instr → Bool
  | .identify _ body => bodyFits body
  | .reset _ body => bodyFits body
  | .write _ body => bodyFits body
  | .read _ body => bodyFits body
  | .pinMap _ body => bodyFits body
  | .submit _ body => bodyFits body
  | .suspend _ body => bodyFits body
  | .resume _ body => bodyFits body
  | .abort _ body => bodyFits body
  | .jobStatus _ body => bodyFits body
  | .laneConfig _ body => bodyFits body
  | .laneOpen _ body => bodyFits body
  | .laneReset _ body => bodyFits body
  | .laneStatus _ body => bodyFits body
  | .fetch _ body => bodyFits body
  | .ackNotices _ body => bodyFits body
  | .rewindNotices _ body => bodyFits body
  | .unknownKindRequest _ kind body => bodyFits body && !requestKinds.contains kind
  | .hostFrameReceived _ => true
  | .gapDiscard => true
  | .replySend => true
  | .replySent => true
  | .noticeSend => true
  | .hostRequestReset _ => true
  | .powerOn _ => true
  | .resetnLow => true
  | .resetPin _ => true
  | .hello _ _ _ => true
  | .ack _ _ => true
  | .nak _ _ => true
  | .hold _ => true
  | .ready _ => true
  | .reply _ _ _ _ body => body.length ≤ Config.maxReplyBody
  | .laneFrameDiscard _ _ => true
  | .probeTimerExpiry _ => true
  | .holdTimerExpiry _ => true
  | .ackTimerExpiry _ => true
  | .dataCut _ => true
  | .cancelCut _ => true
  | .laneFrameSend _ => true
  | .noticeFrameEnd => true

end Sys2Proof
end

