-- ==== Sys2Proof/Machine/Operands.lean ====
section
/-! DEFINITION. Operands: byte order, the CRC, the frames of both links and the fields of request bodies (chapter 11), and
the two receivers that find frames in a stream of bytes (R83, R168, R169). -/

namespace Sys2Proof.Machine

/-! ### Byte order and the CRC (R180) -/

/-- Two bytes, least significant first. -/
def le16 (lo hi : Byte) : Word16 := hi ++ lo

/-- Four bytes, least significant first, as the number they carry. -/
def le32 (b0 b1 b2 b3 : Byte) : Nat := b0.toNat + 256 * b1.toNat + 65536 * b2.toNat + 16777216 * b3.toNat

def bytes16 (w : Word16) : List Byte := [w.extractLsb' 0 8, w.extractLsb' 8 8]

def bytes32 (w : BitVec 32) : List Byte :=
  [w.extractLsb' 0 8, w.extractLsb' 8 8, w.extractLsb' 16 8, w.extractLsb' 24 8]

/-- A number carried in a two-byte field. -/
def natBytes16 (n : Nat) : List Byte := bytes16 (BitVec.ofNat 16 n)

/-- A number carried in a one-byte field. -/
def natByte (n : Nat) : Byte := BitVec.ofNat 8 n

/-- One shift of the CRC register. -/
def crcShift (r : Word16) : Word16 := if r.msb then (r <<< 1) ^^^ 0x1021 else r <<< 1

/-- One byte taken into the CRC register. -/
def crcTake (r : Word16) (b : Byte) : Word16 :=
  crcShift (crcShift (crcShift (crcShift (crcShift (crcShift (crcShift (crcShift
    (r ^^^ (b.zeroExtend 16 <<< 8)))))))))

/-- The CRC-16 of both links: polynomial 0x1021, register from 0xFFFF, most significant bit first, no inversion. -/
def crc16 (bytes : List Byte) : Word16 := bytes.foldl crcTake 0xFFFF

/-- The two CRC bytes that follow `bytes`, low byte first. -/
def crcBytes (bytes : List Byte) : List Byte := bytes16 (crc16 bytes)

/-! ### Host link frames (R181) -/

/-- The bytes the CRC of a host link frame covers: length, seq, kind, body. -/
def hostCovered (seq kind : Byte) (body : List Byte) : List Byte := natBytes16 (body.length + 2) ++ seq :: kind :: body

/-- A host link frame on the line. -/
def hostFrameBytes (seq kind : Byte) (body : List Byte) : List Byte :=
  Config.marker :: (hostCovered seq kind body ++ crcBytes (hostCovered seq kind body))

/-- What stands behind a start marker on HRXD. -/
inductive HostScan where
  /-- the frame is not yet all there -/
  | incomplete
  /-- the length or the CRC fails its test -/
  | bad
  /-- a complete frame and the bytes after it -/
  | complete (r : Request) (rest : List Byte)
  deriving DecidableEq, Repr

/-- Read the frame whose bytes after the marker are given: the length is tested as soon as it is there, the CRC when the
frame is (R168, R169). -/
def scanHostFrame : List Byte → HostScan
  | lo :: hi :: more =>
    let len := (le16 lo hi).toNat
    if len < 2 ∨ 522 < len then .bad
    else if more.length < len + 2 then .incomplete
    else if crcBytes (lo :: hi :: more.take len) = (more.drop len).take 2 then
      match more.take len with
      | seq :: kind :: body => .complete ⟨seq, kind, body⟩ (more.drop (len + 2))
      | _ => .bad
    else .bad
  | _ => .incomplete

/-- The receive hunter over the bytes from a start point on: the requests completed, in order, and the bytes of the frame
still being collected (none when HUNTING). A discarded frame is read again from the byte after its marker. With `gap`, the
frame still being collected is discarded for its gap as well, and so is every frame that the reading again leaves incomplete
(R168, R169). The fuel is one more than the number of bytes. -/
def huntHost (gap : Bool) : Nat → List Byte → List Request × List Byte
  | 0, bytes => ([], bytes)
  | _ + 1, [] => ([], [])
  | fuel + 1, b :: rest =>
    if b = Config.marker then
      match scanHostFrame rest with
      | .incomplete => if gap then huntHost gap fuel rest else ([], b :: rest)
      | .bad => huntHost gap fuel rest
      | .complete r more => (r :: (huntHost gap fuel more).1, (huntHost gap fuel more).2)
    else huntHost gap fuel rest

/-- Host link rate in baud, by BAUD1 and BAUD0 (R167). -/
def baudRate (straps : BitVec 2) : Nat :=
  if straps = 0 then 115200 else if straps = 1 then 460800 else if straps = 2 then 1000000 else 3000000

/-! ### Lane frames (R185) -/

/-- A lane frame on the pair: marker, type, fields, and the CRC over all but the marker. -/
def laneFrameOf (type : Byte) (fields : List Byte) : List Byte :=
  Config.marker :: type :: (fields ++ crcBytes (type :: fields))

/-- The frames the part sends. -/
def laneFrameBytes : LaneFrame → List Byte
  | .probe => laneFrameOf 0x01 []
  | .data seq tag segment frame flags payload =>
    laneFrameOf 0x02 (seq.zeroExtend 8 :: bytes16 tag ++
      [natByte segment, natByte frame, dataFlagsByte flags] ++ natBytes16 payload.length ++ payload)
  | .cancel seq tag => laneFrameOf 0x03 (seq.zeroExtend 8 :: bytes16 tag)
  | .rack bit => laneFrameOf 0x04 [bitByte bit]
  | .rnak bit => laneFrameOf 0x05 [bitByte bit, 1]

/-! The frames the station sends. -/

def helloBytes (window : Byte) (stationId : Word16) : List Byte := laneFrameOf 0x11 (window :: bytes16 stationId)
def ackBytes (n : Byte) : List Byte := laneFrameOf 0x12 [n]
def nakBytes (n : Byte) : List Byte := laneFrameOf 0x13 [n]
def holdBytes : List Byte := laneFrameOf 0x14 []
def readyBytes : List Byte := laneFrameOf 0x15 []
def replyBytes (bit : Byte) (tag : Tag) (code : Byte) (body : List Byte) : List Byte :=
  laneFrameOf 0x16 (bit :: bytes16 tag ++ [code, natByte body.length] ++ body)

/-- What stands behind a start marker on a receive pair. -/
inductive LaneScan where
  | incomplete
  | bad
  | complete
  deriving DecidableEq, Repr

/-- The frame of the given number of field bytes: its CRC is tested when it is all there. -/
def scanFields (type : Byte) (more : List Byte) (n : Nat) : LaneScan :=
  if more.length < n + 2 then .incomplete
  else if crcBytes (type :: more.take n) = (more.drop n).take 2 then .complete
  else .bad

/-- Read the station frame whose bytes after the marker are given (R83): an unknown type is bad at once, and so is a REPLY
whose body length exceeds 64; the other sizes are fixed (R185). -/
def scanLaneFrame : List Byte → LaneScan
  | [] => .incomplete
  | type :: more =>
    if type = 0x11 then scanFields type more 3
    else if type = 0x12 ∨ type = 0x13 then scanFields type more 1
    else if type = 0x14 ∨ type = 0x15 then scanFields type more 0
    else if type = 0x16 then
      match more with
      | _ :: _ :: _ :: _ :: len :: _ =>
        if len.toNat ≤ Config.maxReplyBody then scanFields type more (5 + len.toNat) else .bad
      | _ => .incomplete
    else .bad

/-- The Lane Receiver over the bytes from a start point on: bytes that are no marker are passed over and a bad frame is
discarded and read again from the byte after its marker. What is left begins with the marker of a frame that is incomplete,
or of a well-formed frame that is to be handed on; it is empty while hunting (R83). The fuel is one more than the number of
bytes. -/
def huntLane : Nat → List Byte → List Byte
  | 0, bytes => bytes
  | _ + 1, [] => []
  | fuel + 1, b :: rest =>
    if b = Config.marker then
      match scanLaneFrame rest with
      | .incomplete => b :: rest
      | .complete => b :: rest
      | .bad => huntLane fuel rest
    else huntLane fuel rest

/-! ### Fields of request bodies (R182) -/

/-- The one field of SUSPEND, RESUME, ABORT and JOB_STATUS. -/
def tagField : List Byte → Option Tag
  | [lo, hi] => some (le16 lo hi)
  | _ => none

/-- A lane number as a request carries it: 0 to 7, else BAD_LANE (R171). -/
def laneField (b : Byte) : Option LaneId := if h : b.toNat < 8 then some ⟨b.toNat, h⟩ else none

/-- A segment descriptor of SUBMIT. -/
structure Descriptor where
  offset : Nat
  length : Nat
  flags : Byte
  deriving DecidableEq, Repr

/-- The descriptors a list of bytes holds, seven bytes each. -/
def descriptors : List Byte → List Descriptor
  | o0 :: o1 :: o2 :: o3 :: l0 :: l1 :: f :: more =>
    ⟨le32 o0 o1 o2 o3, (le16 l0 l1).toNat, f⟩ :: descriptors more
  | _ => []

/-- A valid segment (R2): length 1 to 8192, inside staging memory, no flag but NOTIFY and BIND. -/
def validDescriptor (d : Descriptor) : Bool :=
  1 ≤ d.length && d.length ≤ Config.maxSegmentBytes && d.offset + d.length ≤ Config.stagingBytes && d.flags.toNat < 4

/-- The index of the first invalid segment (R2). -/
def firstInvalid : List Descriptor → Option Nat
  | [] => none
  | d :: ds => if validDescriptor d then (firstInvalid ds).map (· + 1) else some 0

/-- The five settings of LANE_CONFIG where every one lies in its range (R88). -/
def configField (ackTimeout retryLimit holdLimit : Byte) (payload : Word16) (policy : Byte) : Option LaneConfig :=
  if 1 ≤ ackTimeout.toNat ∧ 1 ≤ retryLimit.toNat ∧ retryLimit.toNat ≤ 7 ∧ holdLimit.toNat ≤ 60 ∧
      (payload.toNat = 64 ∨ payload.toNat = 128 ∨ payload.toNat = 256 ∨ payload.toNat = 512) then
    (policyOfCode policy).map fun p =>
      ⟨ackTimeout.toNat, retryLimit.toNat, holdLimit.toNat, payload.toNat, p⟩
  else none

/-! ### Notice frames (R184) -/

def noticeKind : NoticeBody → Byte
  | .ready _ => 0x60
  | .jobEnd _ _ _ _ => 0x61
  | .segmentDone _ _ _ => 0x62
  | .jobSuspended _ _ _ => 0x63
  | .laneState _ _ _ => 0x64
  | .returnReady _ => 0x65
  | .overflow _ => 0x66

def noticeFields : NoticeBody → List Byte
  | .ready cause => [resetCauseCode cause]
  | .jobEnd tag lane reason completed => bytes16 tag ++ [natByte lane.val, endReasonCode reason, natByte completed]
  | .segmentDone tag lane segment => bytes16 tag ++ [natByte lane.val, natByte segment]
  | .jobSuspended tag lane next => bytes16 tag ++ [natByte lane.val, natByte next]
  | .laneState lane state cause => [natByte lane.val, laneStateCode state, laneCauseCode cause]
  | .returnReady lane => [natByte lane.val]
  | .overflow lost => natBytes16 lost

end Sys2Proof.Machine
end

