-- ==== Sys2Proof/Machine/Ops.lean ====
section
/-! DEFINITION. Ops: reading and changing one record of State, staging memory, the Page Pin Table, the Notice Queue, and the
freeing of a context: the operations every family of commands shares. -/

namespace Sys2Proof.Machine

/-! ### One record of State -/

def State.ctx (s : State) (c : CtxId) : Context := s.ctxs[c]

def State.modCtx (s : State) (c : CtxId) (f : Context → Context) : State := { s with ctxs := s.ctxs.set c (f (s.ctx c)) }

def State.lane (s : State) (l : LaneId) : Lane := s.lanes[l]

def State.modLane (s : State) (l : LaneId) (f : Lane → Lane) : State := { s with lanes := s.lanes.set l (f (s.lane l)) }

def State.modSched (s : State) (l : LaneId) (f : Scheduler → Scheduler) : State :=
  s.modLane l fun x => { x with sched := f x.sched }

def State.modTx (s : State) (l : LaneId) (f : Transmitter → Transmitter) : State :=
  s.modLane l fun x => { x with tx := f x.tx }

def State.modCtl (s : State) (l : LaneId) (f : Controller → Controller) : State :=
  s.modLane l fun x => { x with ctl := f x.ctl }

def State.modRcv (s : State) (l : LaneId) (f : Receiver → Receiver) : State :=
  s.modLane l fun x => { x with rcv := f x.rcv }

def State.modPair (s : State) (l : LaneId) (f : TxPair → TxPair) : State :=
  s.modLane l fun x => { x with pair := f x.pair }

/-- Every context, in ascending context number (R23). -/
def allCtxs : List CtxId := List.finRange 48

/-! ### Staging memory (R26) -/

/-- The byte at an address; an address not listed reads 0 (R36). -/
def readByte : Memory → Nat → Byte
  | [], _ => 0
  | (a, v) :: m, x => if a = x then v else readByte m x

/-- Write one byte, keeping the addresses strictly rising and listing no 0. -/
def writeByte : Memory → Nat → Byte → Memory
  | [], x, b => if b = 0 then [] else [(x, b)]
  | (a, v) :: m, x, b =>
    if x < a then (if b = 0 then (a, v) :: m else (x, b) :: (a, v) :: m)
    else if x = a then (if b = 0 then m else (x, b) :: m)
    else (a, v) :: writeByte m x b

/-- Place bytes at ascending addresses (R28). -/
def writeBytes : Memory → Nat → List Byte → Memory
  | m, _, [] => m
  | m, x, b :: bs => writeBytes (writeByte m x b) (x + 1) bs

/-- The `n` bytes from an address on, ascending (R29). -/
def readBytes (m : Memory) (x : Nat) : Nat → List Byte
  | 0 => []
  | n + 1 => readByte m x :: readBytes m (x + 1) n

/-- The addresses stand strictly above `low`, rise strictly, lie inside staging memory, and no byte listed is 0. -/
def memoryFormAbove : Option Nat → Memory → Bool
  | _, [] => true
  | low, (a, v) :: m =>
    (match low with | none => true | some x => x < a) && a < Config.stagingBytes && v != 0 && memoryFormAbove (some a) m

/-- The canonical form of staging memory. -/
def memoryWf (m : Memory) : Bool := memoryFormAbove none m

/-! ### Pages and pins (R3, R31) -/

/-- A segment touches the pages from its first byte's to its last byte's (R3). -/
def segmentTouches (g : Segment) (p : Nat) : Bool :=
  g.offset / Config.pageBytes ≤ p && p ≤ (g.offset + g.length - 1) / Config.pageBytes

/-- The pages a job touches are the union of its segments' pages (R3). -/
def touches (segs : List Segment) (p : Nat) : Bool := segs.any fun g => segmentTouches g p

/-- One pin more on each page of a job's union (R32). -/
def pinPages (pins : Vector Nat 64) (segs : List Segment) : Vector Nat 64 :=
  Vector.ofFn fun p : PageId => pins[p] + (if touches segs p.val then 1 else 0)

/-- One pin less on each page of a job's union (R33). -/
def unpinPages (pins : Vector Nat 64) (segs : List Segment) : Vector Nat 64 :=
  Vector.ofFn fun p : PageId => pins[p] - (if touches segs p.val then 1 else 0)

/-- The lowest page with a nonzero count among those from the page of `x` to the page of `x + n - 1` (R27). -/
def lowestPinned (pins : Vector Nat 64) (x n : Nat) : Option PageId :=
  (List.finRange 64).find? fun p => segmentTouches { offset := x, length := n } p.val && pins[p] != 0

/-! ### Segments of a job (R6) -/

/-- The segment records of a job in index order. -/
def State.jobSegments (s : State) (c : CtxId) : List Segment := (s.ctx c).segs.map fun e => s.pool[e]

/-- The segment at one index of a job. -/
def State.segmentAt (s : State) (c : CtxId) (k : Nat) : Option Segment := (s.jobSegments c)[k]?

/-- Pool entries cleared (R7). -/
def clearEntries (pool : Vector Segment 512) (es : List PoolId) : Vector Segment 512 :=
  Vector.ofFn fun e : PoolId => if e ∈ es then {} else pool[e]

/-! ### The Notice Queue (R158, R159) -/

/-- Post a notice: kept at the tail as unsent with the next number, or, when the queue is full, counted as lost. -/
def postTo (q : NoticeQueue) (b : NoticeBody) : NoticeQueue :=
  if q.items.length < Config.noticeCapacity then
    { q with items := q.items ++ [⟨q.nextSeq, b, false⟩], nextSeq := q.nextSeq + 1 }
  else { q with lost := min Config.counterCeiling (q.lost + 1) }

def State.post (s : State) (b : NoticeBody) : State := { s with notices := postTo s.notices b }

/-! ### Freeing a context (R22) -/

/-- Segments to the free list, pins removed, JOB_END posted, record cleared. -/
def State.freeCtx (s : State) (c : CtxId) (reason : EndReason) : State :=
  let x := s.ctx c
  let s := { s with freeList := s.freeList ++ x.segs, pool := clearEntries s.pool x.segs,
                    pins := unpinPages s.pins (s.jobSegments c) }
  let s := s.post (.jobEnd x.tag x.lane reason x.acked)
  s.modCtx c fun _ => {}

/-! ### Jobs by tag (R10) -/

/-- The non-FREE context that holds a tag; tag 0 is never held. -/
def State.findJob (s : State) (tag : Tag) : Option CtxId :=
  if tag = 0 then none
  else allCtxs.find? fun c => (s.ctx c).state != .free && (s.ctx c).tag == tag

/-- The tag of a context a slot or link names, or 0 (R24, R103). -/
def State.tagOf (s : State) : Option CtxId → Tag
  | none => 0
  | some c => (s.ctx c).tag

end Sys2Proof.Machine
end

