-- ==== Sys2Proof/Machine/HostLinkOps.lean ====
section
/-! DEFINITION. HostLinkOps: the Host Link's and Request Decoder's operations (chapter 10), and the part reset (R177,
R178). -/

namespace Sys2Proof.Machine

/-! ### The holding list (R170, R171) -/

/-- A completed request joins the tail of the holding list, or is discarded when four are held (R170). -/
def joinHolding (holding : List Held) (r : Request) : List Held :=
  if holding.length < Config.holdingCapacity then holding ++ [⟨r, false⟩] else holding

/-- The oldest request the Request Decoder has not yet taken (R171). -/
def nextRequest (holding : List Held) : Option Request := (holding.find? fun h => !h.taken).map (·.req)

/-- The oldest request not yet taken becomes taken. -/
def markTaken : List Held → List Held
  | [] => []
  | h :: hs => if h.taken then h :: markTaken hs else { h with taken := true } :: hs

/-- A RESET has been taken and its reply has not been sent in full: the Request Decoder takes no request (R176). -/
def resetAwaited (h : HostLink) : Bool :=
  h.replies.any (·.resets) || (match h.out with
    | .reply _ resets => resets
    | _ => false)

/-- The Request Decoder takes the request `r`: it is the oldest not yet taken, and no RESET's reply is awaited. -/
def takesNext (s : State) (r : Request) : Bool :=
  !resetAwaited s.host && nextRequest s.host.holding == some r

/-! ### The reply memory (R172, R173) -/

/-- The stored reply to a request with the same seq and kind. -/
def storedReply (memory : List Record) (seq kind : Byte) : Option HostFrame :=
  (memory.find? fun m => m.seq == seq && m.kind == kind).map (·.reply)

/-- Add a record as the newest: an older one with the same seq goes first, and so does the oldest of four (R172, R173). -/
def remember (memory : List Record) (m : Record) : List Record :=
  let kept := memory.filter fun x => x.seq != m.seq
  (if kept.length < Config.memoryCapacity then kept else kept.tail) ++ [m]

/-! ### Performing a request (R171) -/

/-- What performing a request gives: the state after it, the reply body, status first, and whether a part reset follows the
reply (R176). -/
structure Answer where
  state : State
  body : List Byte
  resets : Bool := false

/-- A reply of the status alone, with the state unchanged (R183). -/
def refuse (s : State) (st : Status) : Answer := { state := s, body := [statusCode st] }

/-- The reply of a performed request: pending, and recorded (R171, R172). -/
def HostLink.answer (h : HostLink) (r : Request) (replyKind : Byte) (body : List Byte) (resets : Bool) : HostLink :=
  let frame : HostFrame := ⟨r.seq, replyKind, body⟩
  { h with memory := remember h.memory ⟨r.seq, r.kind, frame⟩, replies := h.replies ++ [⟨frame, resets⟩] }

/-- The Request Decoder takes one request: a duplicate is answered from the reply memory and not performed, any other is
performed and its reply recorded (R171 to R173). A request that is not the next one to be taken is not taken. -/
def takeRequest (s : State) (r : Request) (replyKind : Byte) (perform : State → Answer) :
    Host.Outcome State Fault Refusal :=
  if s.heldInReset then .next s
  else if takesNext s r then
    let s := { s with host := { s.host with holding := markTaken s.host.holding } }
    match storedReply s.host.memory r.seq r.kind with
    | some frame => .next { s with host := { s.host with replies := s.host.replies ++ [⟨frame, false⟩] } }
    | none =>
      let a := perform s
      .next { a.state with host := a.state.host.answer r replyKind a.body a.resets }
  else .next s

/-! ### Part resets (R177 to R179) -/

/-- Every block at its values after a part reset, READY posted; staging memory is kept only at a RESET request. The queue
of waiting commands is the model's own and stays. -/
def State.partReset (s : State) (cause : ResetCause) (straps : BitVec 2) (keepMemory : Bool) : State :=
  { State.reset with
    mem := if keepMemory then s.mem else []
    notices := NoticeQueue.afterReset cause
    host := HostLink.afterReset straps
    pending := s.pending }

/-- An event is taken only while the part is not held in reset (R178). -/
def unlessHeld (s : State) (event : Host.Outcome State Fault Refusal) : Host.Outcome State Fault Refusal :=
  if s.heldInReset then .next s else event

/-- The outcome of an operation that may name a byte or a segment that does not exist. -/
def outcomeOf : Except Fault State → Host.Outcome State Fault Refusal
  | .ok s => .next s
  | .error f => .fault f

end Sys2Proof.Machine
end

