-- ==== Sys2Proof/Machine/HostLinkEvents.lean ====
section
/-! DEFINITION. HostLinkEvents: bytes and gaps on HRXD, the frames on HTXD, and the part resets (chapters 9 and 10). -/

namespace Sys2Proof.Machine

/-- The hunter reads on from what it holds; every request completed joins the holding list in order (R168 to R170). -/
def huntOn (h : HostLink) (gap : Bool) (bytes : List Byte) : HostLink :=
  let found := huntHost gap (bytes.length + 1) bytes
  { h with hunter := found.2, holding := found.1.foldl joinHolding h.holding }

/-- HOST_FRAME_RECEIVED (R168 to R170): bytes on HRXD without a gap. -/
def execHostFrameReceived (bytes : List Byte) (s : State) : Host.Outcome State Fault Refusal :=
  unlessHeld s (.next { s with host := huntOn s.host false (s.host.hunter ++ bytes) })

/-- GAP_DISCARD (R169): more than 5 ms since the last byte of the frame being collected. HUNTING, it changes nothing. -/
def execGapDiscard (s : State) : Host.Outcome State Fault Refusal :=
  unlessHeld s (.next { s with host := huntOn s.host true s.host.hunter })

/-- REPLY_SEND (R174): the free transmitter begins the oldest pending reply. -/
def execReplySend (s : State) : Host.Outcome State Fault Refusal :=
  unlessHeld s
    (match s.host.out, s.host.replies with
      | .idle, r :: rs =>
        .next { s with host := { s.host with
          replies := rs, out := .reply (hostFrameBytes r.frame.seq r.frame.kind r.frame.body) r.resets } }
      | _, _ => .next s)

/-- REPLY_SENT (R174): the last byte of a reply is sent and its request, the oldest held, leaves the holding list. The last
byte of a RESET's reply is HOST_REQUEST_RESET and not this event (R170, R177). -/
def execReplySent (s : State) : Host.Outcome State Fault Refusal :=
  unlessHeld s
    (match s.host.out with
      | .reply _ false => .next { s with host := { s.host with out := .idle, holding := s.host.holding.tail } }
      | _ => .next s)

/-- The oldest unsent notice, with the queue in which it has become sent (R160). -/
def sendOldest : List Notice → Option (Notice × List Notice)
  | [] => none
  | x :: xs =>
    if x.sent then (sendOldest xs).map fun r => (r.1, x :: r.2) else some (x, { x with sent := true } :: xs)

/-- NOTICE_SEND (R160, R174): the free transmitter begins the offered notice when no reply is pending. -/
def execNoticeSend (s : State) : Host.Outcome State Fault Refusal :=
  unlessHeld s
    (match s.host.out, s.host.replies with
      | .idle, [] =>
        if s.notices.sentCount < Config.noticeWindow then
          match sendOldest s.notices.items with
          | some (x, items) =>
            .next { s with
              notices := { s.notices with items := items, sentCount := s.notices.sentCount + 1 }
              host := { s.host with out := .notice (hostFrameBytes x.seq (noticeKind x.body) (noticeFields x.body)) } }
          | none => .next s
        else .next s
      | _, _ => .next s)

/-- NOTICE_FRAME_END (R174): the last byte of a notice frame is sent and the transmitter falls free. -/
def execNoticeFrameEnd (s : State) : Host.Outcome State Fault Refusal :=
  unlessHeld s
    (match s.host.out with
      | .notice _ => .next { s with host := { s.host with out := .idle } }
      | _ => .next s)

/-! ### Part resets -/

/-- HOST_REQUEST_RESET (R177): the last byte of a RESET's reply is sent and the part reset is taken; staging memory is
kept. -/
def execHostRequestReset (straps : BitVec 2) (s : State) : Host.Outcome State Fault Refusal :=
  unlessHeld s
    (match s.host.out with
      | .reply _ true => .next (s.partReset .hostRequest straps true)
      | _ => .next s)

/-- POWER_ON (R178): the power-on reset; while RESETN is low it is taken when RESETN goes high. -/
def execPowerOn (straps : BitVec 2) (s : State) : Host.Outcome State Fault Refusal :=
  if s.heldInReset then .next { s with powerOnDue := true }
  else .next (s.partReset .powerOn straps false)

/-- RESETN_LOW (R178): the part is held in reset and sends nothing; a frame on HTXD or on a lane is cut off. -/
def execResetnLow (s : State) : Host.Outcome State Fault Refusal :=
  unlessHeld s (.next { s with
    heldInReset := true
    host := { s.host with out := .idle }
    lanes := Vector.ofFn fun l : LaneId =>
      { s.lane l with pair := { (s.lane l).pair with sending := none } } })

/-- RESET_PIN (R178): RESETN returns high and the reset is taken, a power-on reset when power was applied meanwhile. -/
def execResetPin (straps : BitVec 2) (s : State) : Host.Outcome State Fault Refusal :=
  if s.heldInReset then .next (s.partReset (if s.powerOnDue then .powerOn else .resetPin) straps false)
  else .next s

end Sys2Proof.Machine
end

