-- ==== Sys2Proof/Machine/Scheduling.lean ====
section
/-! DEFINITION. Scheduling: the Lane Scheduler's operations (chapter 3): selection, boundaries, preemption, suspension at a
boundary, leaving the running slot, the splice and withdrawal. -/

namespace Sys2Proof.Machine

/-! ### Ready queues (R38, R41) -/

/-- The head of the highest-priority non-empty ready queue, with its class. -/
def bestReady (ready : Vector (List CtxId) 4) : Option (ClassId × CtxId) :=
  (List.finRange 4).findSome? fun k => (ready[k].head?).map fun c => (k, c)

/-- Replace one class's queue. -/
def setQueue (ready : Vector (List CtxId) 4) (k : ClassId) (q : List CtxId) : Vector (List CtxId) 4 := ready.set k q

/-- A job joins the tail of the ready queue of its own lane and class and becomes QUEUED (R41). -/
def State.joinTail (s : State) (c : CtxId) : State :=
  let x := s.ctx c
  let s := s.modSched x.lane fun d => { d with ready := setQueue d.ready x.cls (d.ready[x.cls] ++ [c]) }
  s.modCtx c fun x => { x with state := .queued }

/-! ### Selection (R42, R43, R44) -/

/-- Selection is performed in UP and HELD (R44). -/
def selects : LaneState → Bool
  | .up | .held => true
  | _ => false

/-- Case 1 of R43: the best ready head `(k, c)` takes the running slot with its return link set to the resume point. -/
def State.takeHead (s : State) (l : LaneId) (k : ClassId) (c : CtxId) : State :=
  let link := (s.lane l).sched.resume
  let s := s.modSched l fun d => ⟨setQueue d.ready k d.ready[k].tail, some c, none⟩
  s.modCtx c fun x => { x with state := .running, link := link }

/-- Case 2 of R43: the job at the resume point takes the running slot and keeps its return link. -/
def State.takeResume (s : State) (l : LaneId) (r : CtxId) : State :=
  let s := s.modSched l fun d => { d with running := some r, resume := none }
  s.modCtx r fun x => { x with state := .running }

/-- Selection as the last part of an event: performed when the lane is UP or HELD, its running slot is empty and there is a
candidate. -/
def State.select (s : State) (l : LaneId) : State :=
  let d := (s.lane l).sched
  if selects (s.lane l).ctl.state && d.running.isNone then
    match bestReady d.ready, d.resume with
    | some (k, c), none => s.takeHead l k c
    | some (k, c), some r => if (s.ctx c).cls < (s.ctx r).cls then s.takeHead l k c else s.takeResume l r
    | none, some r => s.takeResume l r
    | none, none => s
  else s

/-! ### Leaving the running slot (R52) -/

/-- The running job vacates the slot: its return link passes to the resume point, its pending suspension is dropped. -/
def State.vacate (s : State) (l : LaneId) (c : CtxId) : State :=
  let link := (s.ctx c).link
  let s := s.modSched l fun d => { d with running := none, resume := link }
  s.modCtx c fun x => { x with link := none, suspendPending := false }

/-! ### Boundaries (R46 to R51) -/

/-- The boundary before segment `k` is bound when segment `k - 1` has BIND; before segment 0 it is unbound (R47, R48). -/
def State.boundBefore (s : State) (c : CtxId) : Nat → Bool
  | 0 => false
  | k + 1 => match s.segmentAt c k with
    | some g => g.bindFlag
    | none => false

/-- Suspension of the running job at an unbound boundary (R51). -/
def State.suspendAtBoundary (s : State) (l : LaneId) (c : CtxId) : State :=
  let s := s.vacate l c
  let s := s.modCtx c fun x => { x with state := .suspended }
  let s := s.post (.jobSuspended (s.ctx c).tag (s.ctx c).lane (s.ctx c).sent)
  s.select l

/-- Preemption of the running job `c` by the best ready head `(k, h)` (R50). -/
def State.preempt (s : State) (l : LaneId) (c : CtxId) (k : ClassId) (h : CtxId) : State :=
  let s := s.modCtx c fun x => { x with state := .preempted }
  let s := s.modSched l fun d => { d with ready := setQueue d.ready k d.ready[k].tail, running := some h }
  s.modCtx h fun x => { x with state := .running, link := some c }

/-- The boundary that the running job has reached before its sent position (R48, R49). -/
def State.evalBoundary (s : State) (l : LaneId) : State :=
  match (s.lane l).sched.running with
  | none => s
  | some c =>
    if s.boundBefore c (s.ctx c).sent then s
    else if (s.ctx c).suspendPending then s.suspendAtBoundary l c
    else match bestReady (s.lane l).sched.ready with
      | some (k, h) => if (s.ctx h).cls < (s.ctx c).cls then s.preempt l c k h else s
      | none => s

/-- The running job drains: DRAINING, out of the slot, selection (R53). -/
def State.drain (s : State) (l : LaneId) (c : CtxId) : State :=
  let s := s.modCtx c fun x => { x with state := .draining }
  let s := s.vacate l c
  s.select l

/-! ### The splice and withdrawal (R55, R56) -/

/-- The context whose return link names `x` while it runs or waits in the chain of the lane. -/
def State.linkHolder (s : State) (l : LaneId) (x : CtxId) : Option CtxId :=
  allCtxs.find? fun c =>
    (s.ctx c).link == some x &&
      ((s.lane l).sched.running == some c || ((s.ctx c).state == .preempted && (s.ctx c).lane == l))

/-- The splice: the holder of `x` takes `x`'s return link, and `x`'s becomes none (R55). -/
def State.splice (s : State) (l : LaneId) (x : CtxId) : State :=
  let link := (s.ctx x).link
  let s :=
    if (s.lane l).sched.resume = some x then s.modSched l fun d => { d with resume := link }
    else match s.linkHolder l x with
      | some c => s.modCtx c fun y => { y with link := link }
      | none => s
  s.modCtx x fun y => { y with link := none }

/-- Removal from the ready queue of the job's own lane and class; the entries behind move up (R56). -/
def State.unqueue (s : State) (c : CtxId) : State :=
  let x := s.ctx c
  s.modSched x.lane fun d => { d with ready := setQueue d.ready x.cls (d.ready[x.cls].filter (· ≠ c)) }

/-- Withdrawal of a job from its lane's scheduler according to its state, without the selection that ends the event (R56,
R57). -/
def State.withdraw (s : State) (c : CtxId) : State :=
  match (s.ctx c).state with
  | .queued => s.unqueue c
  | .running => s.vacate (s.ctx c).lane c
  | .preempted => s.splice (s.ctx c).lane c
  | .suspended => s
  | .draining => s
  | .aborting => s
  | .free => s

/-- Withdraw and free, one after another in ascending context number, every non-FREE context of a lane that `goes` picks:
ABORTED for an ABORTING job and `reason` for the others (R23, R57, R101, R138). -/
def State.endJobs (s : State) (l : LaneId) (goes : Context → Bool) (reason : EndReason) : State :=
  allCtxs.foldl (fun s c =>
    let x := s.ctx c
    if x.state != .free && x.lane == l && goes x then
      (s.withdraw c).freeCtx c (if x.state = .aborting then .aborted else reason)
    else s) s

end Sys2Proof.Machine
end

