-- ==== Sys2Proof/Machine/JobRequests.lean ====
section
/-! DEFINITION. JobRequests: SUBMIT, SUSPEND, RESUME, ABORT and JOB_STATUS (chapters 1 and 4). -/

namespace Sys2Proof.Machine

/-! ### SUBMIT (R17 to R19) -/

/-- The pool with the job's entries filled in list order: each holds its descriptor and links to the job's next entry
(R6). -/
def fillEntries (pool : Vector Segment 512) : List PoolId → List Descriptor → Vector Segment 512
  | e :: es, d :: ds =>
    (fillEntries pool es ds).set e
      { offset := d.offset, length := d.length, notifyFlag := d.flags.getLsbD 0, bindFlag := d.flags.getLsbD 1,
        link := if ds.isEmpty then none else es.head? }
  | _, _ => pool

/-- The lowest-numbered FREE context (R19). -/
def State.lowestFree (s : State) : Option CtxId := allCtxs.find? fun c => (s.ctx c).state == .free

/-- An admitted SUBMIT, but for the selection that may follow (R19). -/
def State.admitJob (s : State) (c : CtxId) (lane : LaneId) (cls : ClassId) (tag : Tag) (ds : List Descriptor) : State :=
  let n := ds.length
  let es := s.freeList.take n
  let s := { s with freeList := s.freeList.drop n, pool := fillEntries s.pool es ds }
  let s := s.modCtx c fun _ => { tag := tag, lane := lane, cls := cls, segCount := n, segs := es }
  let s := { s with pins := pinPages s.pins (s.jobSegments c) }
  s.joinTail c

/-- SUBMIT: the seven checks of R18 in order, then the admission of R19 and selection (R41, R42). -/
def performSubmit (body : List Byte) (s : State) : Answer :=
  match body with
  | laneByte :: clsByte :: t0 :: t1 :: count :: rest =>
    if rest.length ≠ 7 * count.toNat then refuse s .badLength
    else match laneField laneByte with
      | none => refuse s .badLane
      | some lane =>
        if h : clsByte.toNat < 4 ∧ 1 ≤ count.toNat ∧ count.toNat ≤ Config.maxSegments ∧ le16 t0 t1 ≠ 0 then
          if (s.findJob (le16 t0 t1)).isSome then refuse s .tagInUse
          else match firstInvalid (descriptors rest) with
            | some i => { state := s, body := [statusCode .badSegment, natByte i] }
            | none =>
              match s.lowestFree with
              | none => refuse s .noContext
              | some c =>
                if s.freeList.length < count.toNat then refuse s .noSegments
                else { state := (s.admitJob c lane ⟨clsByte.toNat, h.1⟩ (le16 t0 t1) (descriptors rest)).select lane,
                       body := [statusCode .ok, natByte c.val] }
        else refuse s .badValue
  | _ => refuse s .badLength

def execSubmit (seq : Byte) (body : List Byte) (s : State) : Host.Outcome State Fault Refusal :=
  takeRequest s ⟨seq, 0x20, body⟩ 0xA0 (performSubmit body)

/-! ### Requests that name a job by its tag (R10, R62) -/

/-- The common checks: the body is one tag, and a non-FREE context holds it (R24, R62). -/
def onJob (body : List Byte) (s : State) (act : CtxId → Answer) : Answer :=
  match tagField body with
  | none => refuse s .badLength
  | some tag =>
    match s.findJob tag with
    | none => refuse s .noSuchJob
    | some c => act c

/-- SUSPEND in each state of the job (R63 to R66). -/
def suspendJob (s : State) (c : CtxId) : Answer :=
  match (s.ctx c).state with
  | .queued | .preempted =>
    { state := (s.withdraw c).modCtx c fun x => { x with state := .suspended }, body := [statusCode .ok] }
  | .running => { state := s.modCtx c fun x => { x with suspendPending := true }, body := [statusCode .pending] }
  | .suspended | .draining | .aborting | .free => refuse s .wrongState

def performSuspend (body : List Byte) (s : State) : Answer := onJob body s (suspendJob s)

def execSuspend (seq : Byte) (body : List Byte) (s : State) : Host.Outcome State Fault Refusal :=
  takeRequest s ⟨seq, 0x21, body⟩ 0xA1 (performSuspend body)

/-- RESUME in each state of the job (R70, R71). -/
def resumeJob (s : State) (c : CtxId) : Answer :=
  match (s.ctx c).state with
  | .suspended => { state := (s.joinTail c).select (s.ctx c).lane, body := [statusCode .ok] }
  | .running =>
    if (s.ctx c).suspendPending then
      { state := s.modCtx c fun x => { x with suspendPending := false }, body := [statusCode .ok] }
    else refuse s .wrongState
  | .queued | .preempted | .draining | .aborting | .free => refuse s .wrongState

def performResume (body : List Byte) (s : State) : Answer := onJob body s (resumeJob s)

def execResume (seq : Byte) (body : List Byte) (s : State) : Host.Outcome State Fault Refusal :=
  takeRequest s ⟨seq, 0x22, body⟩ 0xA2 (performResume body)

/-- The selection that ends an ABORT of a RUNNING job (R73, R74). -/
def State.selectIf (s : State) (was : JobState) (l : LaneId) : State := if was = .running then s.select l else s

/-- ABORT of a job that has not started: withdrawn and freed at once (R73). -/
def State.abortUnstarted (s : State) (c : CtxId) : State :=
  ((s.withdraw c).freeCtx c .aborted).selectIf (s.ctx c).state (s.ctx c).lane

/-- ABORT of a started job: withdrawn, ABORTING, its CANCEL at the tail of the lane's cancel list (R74, R75). -/
def State.abortStarted (s : State) (c : CtxId) : State :=
  let x := s.ctx c
  let t := (s.withdraw c).modCtx c fun y => { y with state := .aborting }
  let t := t.modTx x.lane fun t => { t with cancels := t.cancels ++ [⟨c, x.tag⟩] }
  t.selectIf x.state x.lane

/-- ABORT (R72): refused for an ABORTING job, else decided by the started flag. -/
def abortJob (s : State) (c : CtxId) : Answer :=
  if (s.ctx c).state = .aborting then refuse s .wrongState
  else if (s.ctx c).started then { state := s.abortStarted c, body := [statusCode .ok, jobStateCode .aborting] }
  else { state := s.abortUnstarted c, body := [statusCode .ok, jobStateCode .free] }

def performAbort (body : List Byte) (s : State) : Answer := onJob body s (abortJob s)

def execAbort (seq : Byte) (body : List Byte) (s : State) : Host.Outcome State Fault Refusal :=
  takeRequest s ⟨seq, 0x23, body⟩ 0xA3 (performAbort body)

/-- The JOB_STATUS reply (R24, R183). -/
def jobStatusReply (s : State) (c : CtxId) : List Byte :=
  let x := s.ctx c
  [statusCode .ok, natByte c.val, jobStateCode x.state, natByte x.lane.val, natByte x.cls.val, natByte x.segCount,
    natByte x.sent, natByte x.acked, jobFlagsByte x] ++ bytes16 (s.tagOf x.link)

/-- JOB_STATUS (R24): changes no state. -/
def performJobStatus (body : List Byte) (s : State) : Answer :=
  onJob body s fun c => { state := s, body := jobStatusReply s c }

def execJobStatus (seq : Byte) (body : List Byte) (s : State) : Host.Outcome State Fault Refusal :=
  takeRequest s ⟨seq, 0x24, body⟩ 0xA4 (performJobStatus body)

end Sys2Proof.Machine
end

