-- ==== Sys2Proof/Machine/Transmission.lean ====
section
/-! DEFINITION. Transmission: the Lane Transmitter's and Lane Controller's operations: forming frames, cutting,
acknowledging, retransmitting (chapter 6), entry into FAULT and station restart (chapter 7). -/

namespace Sys2Proof.Machine

/-- LANE_STATE with the lane's state after the event (R87). -/
def State.postLaneState (s : State) (l : LaneId) (cause : LaneCause) : State :=
  s.post (.laneState l (s.lane l).ctl.state cause)

/-! ### Forming frames (R108, R109, R111, R122) -/

/-- Where frame `f` of a segment lies and how many bytes it carries, at payload size `p` (R108). -/
def frameSpan (g : Segment) (p f : Nat) : Nat × Nat := (g.offset + f * p, min p (g.length - f * p))

/-- A frame is the last of its segment when it reaches the segment's end (R108). -/
def isLastFrame (g : Segment) (p f : Nat) : Bool := f * p + (frameSpan g p f).2 == g.length

/-- The payload of a DATA frame, read from staging memory as it stands (R30). -/
def payloadOf (m : Memory) (g : Segment) (p f : Nat) : Except Fault (List Byte) :=
  if (frameSpan g p f).1 + (frameSpan g p f).2 ≤ Config.stagingBytes then
    .ok (readBytes m (frameSpan g p f).1 (frameSpan g p f).2)
  else .error .noSuchByte

/-- The frame an in-flight entry records, formed from the state as it stands (R108, R111, R122). -/
def State.formFrame (s : State) (l : LaneId) (e : InFlight) : Except Fault LaneFrame :=
  match e.what with
  | .cancel => .ok (.cancel e.seq (s.ctx e.ctx).tag)
  | .data k f flags =>
    match s.segmentAt e.ctx k with
    | none => .error .noSuchSegment
    | some g =>
      match payloadOf s.mem g (s.lane l).ctl.config.payloadSize f with
      | .error x => .error x
      | .ok bytes => .ok (.data e.seq (s.ctx e.ctx).tag k f flags bytes)

/-- The frames of several entries, in list order, each a copy of its entry. -/
def State.formFrames (s : State) (l : LaneId) : List InFlight → Except Fault (List WaitingFrame)
  | [] => .ok []
  | e :: es =>
    match s.formFrame l e with
    | .error x => .error x
    | .ok f =>
      match s.formFrames l es with
      | .error x => .error x
      | .ok fs => .ok (⟨f, some e.seq⟩ :: fs)

/-! ### Retransmission (R122) -/

/-- The entry with number `n` and every entry after it. -/
def fromSeq (es : List InFlight) (n : BitVec 4) : List InFlight := es.dropWhile fun e => e.seq != n

/-- Retransmit some entries: waiting copies of them are withdrawn, each is formed again once in list order, and each frame
formed adds one to the retransmission total. -/
def State.retransmit (s : State) (l : LaneId) (es : List InFlight) : Except Fault State :=
  match s.formFrames l es with
  | .error x => .error x
  | .ok fs =>
    let s := s.modPair l fun p =>
      { p with frames := p.frames.filter (fun w => !(es.any fun e => w.copyOf == some e.seq)) ++ fs }
    .ok (s.modTx l fun t => { t with retxTotal := min Config.counterCeiling (t.retxTotal + es.length) })

/-! ### Cutting (R107 to R112) -/

/-- The lane is UP and the window has room (R107). -/
def State.canCut (s : State) (l : LaneId) : Bool :=
  (s.lane l).ctl.state == .up && (s.lane l).tx.inFlight.length < (s.lane l).ctl.window

/-- A cut takes the next sequence number, joins the tail of the in-flight list, starts the ack timer of an empty list, and
hands the frame to the pair (R107, R112, R113). -/
def State.launch (s : State) (l : LaneId) (c : CtxId) (what : SentFrame) (frame : LaneFrame) : State :=
  let seq := (s.lane l).tx.nextSeq
  let timeout := (s.lane l).ctl.config.ackTimeout
  let s := s.modTx l fun t =>
    { t with inFlight := t.inFlight ++ [⟨seq, c, what⟩], nextSeq := t.nextSeq + 1,
             ackTimer := if t.inFlight.isEmpty then some timeout else t.ackTimer }
  s.modPair l fun p => { p with frames := p.frames ++ [⟨frame, some seq⟩] }

/-- The flags of frame `f` of segment `k` (R109). -/
def flagsFor (x : Context) (g : Segment) (p k f : Nat) : DataFlags where
  first := f == 0
  last := isLastFrame g p f
  endOfJob := isLastFrame g p f && k + 1 == x.segCount
  resent := k < x.resend

/-- What a cut changes in the running job's context, and then the boundary or the drain (R110). -/
def State.advance (s : State) (l : LaneId) (c : CtxId) (last : Bool) : State :=
  let s := s.modCtx c fun x => { x with started := true }
  if last then
    let s := s.modCtx c fun x => { x with cut := 0, sent := x.sent + 1 }
    if (s.ctx c).sent < (s.ctx c).segCount then s.evalBoundary l else s.drain l c
  else s.modCtx c fun x => { x with cut := x.cut + 1 }

/-- Cut the next DATA frame of the running job (R108 to R110). -/
def State.cutData (s : State) (l : LaneId) (c : CtxId) : Except Fault State :=
  let x := s.ctx c
  match s.segmentAt c x.sent with
  | none => .error .noSuchSegment
  | some g =>
    let flags := flagsFor x g (s.lane l).ctl.config.payloadSize x.sent x.cut
    let what := SentFrame.data x.sent x.cut flags
    match s.formFrame l ⟨(s.lane l).tx.nextSeq, c, what⟩ with
    | .error e => .error e
    | .ok frame => .ok ((s.launch l c what frame).advance l c flags.last)

/-- Cut the head of the cancel list into a CANCEL frame (R111). -/
def State.cutCancel (s : State) (l : LaneId) (e : CancelEntry) : State :=
  let frame := LaneFrame.cancel (s.lane l).tx.nextSeq (s.ctx e.ctx).tag
  let s := s.modTx l fun t => { t with cancels := t.cancels.tail }
  s.launch l e.ctx .cancel frame

/-! ### ACK (R115 to R118) -/

/-- An in-flight list split behind the entry with number `n`; none when no entry has it. -/
def splitThrough (n : Nat) : List InFlight → Option (List InFlight × List InFlight)
  | [] => none
  | e :: es =>
    if e.seq.toNat = n then some ([e], es)
    else (splitThrough n es).map fun r => (e :: r.1, r.2)

/-- Account for one entry that an ACK removed (R116). -/
def State.account (s : State) (l : LaneId) (e : InFlight) : State :=
  match e.what with
  | .cancel => s.freeCtx e.ctx .aborted
  | .data k _ flags =>
    if flags.last then
      let s := s.modCtx e.ctx fun x => { x with acked := x.acked + 1 }
      let x := s.ctx e.ctx
      let marked := match s.segmentAt e.ctx k with
        | some g => g.notifyFlag
        | none => false
      let s := if x.state != .aborting && policyReports (s.lane l).ctl.config.policy marked then
          s.post (.segmentDone x.tag x.lane k) else s
      if x.state == .draining && x.acked == x.segCount then s.freeCtx e.ctx .completed else s
    else s

/-- The deferred point after an ACK: moved to the new head when its entry was removed (R121). -/
def deferredAfter (point : Option (BitVec 4)) (removed rest : List InFlight) : Option (BitVec 4) :=
  match point with
  | none => none
  | some d => if removed.any (fun e => e.seq == d) then rest.head?.map (·.seq) else some d

/-- An ACK naming an entry: entries removed and accounted for, retry count 0, deferred point and ack timer adjusted. A
waiting copy of a removed entry stays, a copy of no entry any more (R115). -/
def State.acknowledge (s : State) (l : LaneId) (removed rest : List InFlight) : State :=
  let up := (s.lane l).ctl.state == .up
  let timeout := (s.lane l).ctl.config.ackTimeout
  let s := s.modTx l fun t => { t with inFlight := rest }
  let s := removed.foldl (fun s e => s.account l e) s
  let s := s.modTx l fun t =>
    { t with retry := 0, deferred := deferredAfter t.deferred removed rest,
             ackTimer := if up then (if rest.isEmpty then none else some timeout) else t.ackTimer }
  s.modPair l fun p =>
    { p with frames := p.frames.map fun w => if removed.any (fun e => w.copyOf == some e.seq) then { w with copyOf := none } else w }

/-! ### Entry into FAULT (R99, R129 to R132) -/

/-- The context's positions after a fault rollback (R13, R130). -/
def rolledBack (x : Context) : Context :=
  { x with resend := max x.resend (x.sent + (if x.cut = 0 then 0 else 1)), sent := x.acked, cut := 0 }

/-- A fault rolls back a non-FREE context of its lane with cut work that is not acknowledged (R130). -/
def needsRollback (l : LaneId) (x : Context) : Bool :=
  x.state != .free && x.lane == l && (x.acked < x.sent || x.cut != 0)

/-- The first occurrence of each context of a list. -/
def firstOccurrences : List CtxId → List CtxId → List CtxId
  | _, [] => []
  | seen, c :: cs => if c ∈ seen then firstOccurrences seen cs else c :: firstOccurrences (c :: seen) cs

/-- The contexts of the DATA entries of an in-flight list, from its head. -/
def dataContexts (es : List InFlight) : List CtxId :=
  es.filterMap fun e => match e.what with
    | .data _ _ _ => some e.ctx
    | .cancel => none

/-- The DRAINING jobs that a fault requeues, by their oldest discarded frame; a rolled-back DRAINING job without one comes
after them (R131). -/
def State.requeued (s : State) (l : LaneId) : List CtxId :=
  (firstOccurrences [] (dataContexts (s.lane l).tx.inFlight ++ allCtxs)).filter fun c =>
    (s.ctx c).state == .draining && needsRollback l (s.ctx c)

/-- The Context Table's and Lane Scheduler's part of an entry into FAULT: rollback, then the DRAINING jobs at the heads of
their class queues (R130, R131). -/
def State.rollback (s : State) (l : LaneId) : State :=
  let again := s.requeued l
  let classOf := fun c => (s.ctx c).cls
  let s := { s with ctxs := Vector.ofFn fun c : CtxId =>
      let x := s.ctx c
      if needsRollback l x then
        (if c ∈ again then { rolledBack x with state := .queued } else rolledBack x)
      else x }
  s.modSched l fun d => { d with ready := Vector.ofFn fun k : ClassId => again.filter (fun c => classOf c = k) ++ d.ready[k] }

/-- The CANCEL entries of an in-flight list go to the head of the cancel list (R129). -/
def State.returnedCancels (s : State) (es : List InFlight) : List CancelEntry :=
  es.filterMap fun e => match e.what with
    | .data _ _ _ => none
    | .cancel => some ⟨e.ctx, (s.ctx e.ctx).tag⟩

/-- Entry into FAULT: timers stopped, state and cause set, LANE_STATE posted, waiting frames withdrawn, CANCELs returned,
the in-flight list emptied, jobs rolled back and requeued (R99, R129 to R132). A frame on the pair is completed. -/
def State.enterFault (s : State) (l : LaneId) (why : FaultCause) (cause : LaneCause) : State :=
  let s := s.modCtl l fun c => { c with state := .fault, lastFault := why, probeTimer := none, holdTimer := none }
  let s := s.postLaneState l cause
  let s := s.modPair l fun p => { p with answers := [], probes := 0, frames := [] }
  let back := s.returnedCancels (s.lane l).tx.inFlight
  let s := s.rollback l
  s.modTx l fun t => { t with inFlight := [], cancels := back ++ t.cancels, ackTimer := none, retry := 0, deferred := none }

/-- A NAK or an expiry raises the retry count; above the retry limit the lane enters FAULT, else `again` goes on (R114,
R119, R120, R123). -/
def State.retryOr (s : State) (l : LaneId) (again : State → Except Fault State) : Except Fault State :=
  let s := s.modTx l fun t => { t with retry := t.retry + 1 }
  if (s.lane l).ctl.config.retryLimit < (s.lane l).tx.retry then .ok (s.enterFault l .retryLimit .retryLimit)
  else again s

/-- The ack timer started in full (R113). -/
def State.startAckTimer (s : State) (l : LaneId) : State :=
  let timeout := (s.lane l).ctl.config.ackTimeout
  s.modTx l fun t => { t with ackTimer := some timeout }

/-- The deferred point after a NAK in HELD: the earliest entry any NAK of the hold has named (R120). -/
def deferTo (es : List InFlight) (point : Option (BitVec 4)) (n : BitVec 4) : BitVec 4 :=
  match point with
  | none => n
  | some d => if (fromSeq es n).any (fun e => e.seq == d) then n else d

/-! ### Synchronisation and station restart (R92, R137 to R139) -/

/-- A HELLO that completes a synchronisation (R92). -/
def State.synchronise (s : State) (l : LaneId) (window : Nat) (stationId : Word16) : State :=
  let s := s.modCtl l fun c => { c with probeTimer := none, window := window, stationId := stationId, state := .up }
  let s := s.modPair l fun p => { p with probes := 0 }
  let s := s.modTx l fun t => { t with nextSeq := 0 }
  let s := s.modRcv l fun r => { r with lastBit := none }
  let s := s.postLaneState l .hello
  match (s.lane l).sched.running with
  | some _ => s.evalBoundary l
  | none => s.select l

/-- A HELLO taken in UP or HELD: the station has started afresh (R137 to R139). -/
def State.stationRestart (s : State) (l : LaneId) (window : Nat) (stationId : Word16) : State :=
  let s := s.modCtl l fun c => { c with window := window, stationId := stationId, holdTimer := none }
  let s := s.modPair l fun p => { p with answers := [], frames := [] }
  let s := s.modTx l fun t =>
    { t with inFlight := [], cancels := [], ackTimer := none, deferred := none, retry := 0, nextSeq := 0 }
  let s := s.modRcv l fun r => { r with lastBit := none }
  let s := s.endJobs l (fun x => x.started) .stationRestart
  let s := s.modCtl l fun c => { c with state := .up }
  let s := s.postLaneState l .stationRestart
  s.select l

end Sys2Proof.Machine
end

