-- ==== Sys2Proof/Machine/LaneEvents.lean ====
section
/-! DEFINITION. LaneEvents: timer expiries, cuts and the frames of the transmit pair (chapters 5 and 6). -/

namespace Sys2Proof.Machine

/-- PROBE_TIMER_EXPIRY (R91): a stopped timer, or a lane that is not SYNCING, has no expiry. -/
def State.probeExpiry (s : State) (l : LaneId) : State :=
  match (s.lane l).ctl.state, (s.lane l).ctl.probeTimer with
  | .syncing, some _ =>
    if (s.lane l).ctl.probeCount < Config.maxProbes then
      let s := s.modPair l fun p => { p with probes := p.probes + 1 }
      s.modCtl l fun c => { c with probeCount := c.probeCount + 1, probeTimer := some Config.probeInterval }
    else s.enterFault l .noStation .noStation
  | _, _ => s

def execProbeTimerExpiry (l : LaneId) (s : State) : Host.Outcome State Fault Refusal :=
  unlessHeld s (.next (s.probeExpiry l))

/-- HOLD_TIMER_EXPIRY (R98). -/
def State.holdExpiry (s : State) (l : LaneId) : State :=
  match (s.lane l).ctl.state, (s.lane l).ctl.holdTimer with
  | .held, some _ => s.enterFault l .holdLimit .holdLimit
  | _, _ => s

def execHoldTimerExpiry (l : LaneId) (s : State) : Host.Outcome State Fault Refusal :=
  unlessHeld s (.next (s.holdExpiry l))

/-- ACK_TIMER_EXPIRY (R114). -/
def State.ackExpiry (s : State) (l : LaneId) : Except Fault State :=
  match (s.lane l).ctl.state, (s.lane l).tx.ackTimer with
  | .up, some _ => s.retryOr l fun s =>
      match s.retransmit l (s.lane l).tx.inFlight with
      | .error e => .error e
      | .ok s => .ok (s.startAckTimer l)
  | _, _ => .ok s

def execAckTimerExpiry (l : LaneId) (s : State) : Host.Outcome State Fault Refusal :=
  unlessHeld s (outcomeOf (s.ackExpiry l))

/-- DATA_CUT (R107, R108): no cut while a CANCEL waits or no job runs. -/
def State.dataCut (s : State) (l : LaneId) : Except Fault State :=
  if s.canCut l && (s.lane l).tx.cancels.isEmpty then
    match (s.lane l).sched.running with
    | some c => s.cutData l c
    | none => .ok s
  else .ok s

def execDataCut (l : LaneId) (s : State) : Host.Outcome State Fault Refusal := unlessHeld s (outcomeOf (s.dataCut l))

/-- CANCEL_CUT (R107, R111). -/
def State.cancelCut (s : State) (l : LaneId) : State :=
  if s.canCut l then
    match (s.lane l).tx.cancels with
    | e :: _ => s.cutCancel l e
    | [] => s
  else s

def execCancelCut (l : LaneId) (s : State) : Host.Outcome State Fault Refusal := unlessHeld s (.next (s.cancelCut l))

/-- What the pair sends next in each lane state: PROBE in SYNCING; RACK and RNAK ahead of the Lane Transmitter in UP; RACK
and RNAK alone in HELD; nothing in DOWN and FAULT (R82, R86, R95). -/
def nextOnPair (st : LaneState) (p : TxPair) : TxPair :=
  match st with
  | .syncing =>
    if p.probes = 0 then { p with sending := none }
    else { p with sending := some (laneFrameBytes .probe), probes := p.probes - 1 }
  | .up =>
    match p.answers, p.frames with
    | a :: as, _ => { p with sending := some (laneFrameBytes a), answers := as }
    | [], f :: fs => { p with sending := some (laneFrameBytes f.frame), frames := fs }
    | [], [] => { p with sending := none }
  | .held =>
    match p.answers with
    | a :: as => { p with sending := some (laneFrameBytes a), answers := as }
    | [] => { p with sending := none }
  | .down => { p with sending := none }
  | .fault => { p with sending := none }

/-- LANE_FRAME_SEND (R82): the pair falls free, the frame on it complete, and the next waiting frame begins. -/
def execLaneFrameSend (l : LaneId) (s : State) : Host.Outcome State Fault Refusal :=
  unlessHeld s (.next (s.modPair l (nextOnPair (s.lane l).ctl.state)))

end Sys2Proof.Machine
end

