-- ==== Sys2Proof/Machine/LaneRequests.lean ====
section
/-! DEFINITION. LaneRequests: LANE_CONFIG, LANE_OPEN, LANE_RESET, LANE_STATUS and FETCH (chapters 5 and 8). -/

namespace Sys2Proof.Machine

/-- The common checks of a request whose body is one lane number (R171). -/
def onLane (body : List Byte) (s : State) (act : LaneId → Answer) : Answer :=
  match body with
  | [b] =>
    match laneField b with
    | none => refuse s .badLane
    | some l => act l
  | _ => refuse s .badLength

/-- LANE_CONFIG (R88): body length, lane, ranges and lane state in this order; then all five settings at once. -/
def performLaneConfig (body : List Byte) (s : State) : Answer :=
  match body with
  | [lane, timeout, retries, holdFor, p0, p1, policy] =>
    match laneField lane with
    | none => refuse s .badLane
    | some l =>
      match configField timeout retries holdFor (le16 p0 p1) policy with
      | none => refuse s .badValue
      | some cfg =>
        match (s.lane l).ctl.state with
        | .down | .fault => { state := s.modCtl l fun c => { c with config := cfg }, body := [statusCode .ok] }
        | .syncing | .up | .held => refuse s .wrongState
  | _ => refuse s .badLength

def execLaneConfig (seq : Byte) (body : List Byte) (s : State) : Host.Outcome State Fault Refusal :=
  takeRequest s ⟨seq, 0x30, body⟩ 0xB0 (performLaneConfig body)

/-- A lane opened: SYNCING, the first PROBE formed, the probe timer started, LANE_STATE posted (R90). -/
def State.openLane (s : State) (l : LaneId) : State :=
  let s := s.modCtl l fun c =>
    { c with state := .syncing, probeCount := 1, probeTimer := some Config.probeInterval }
  let s := s.modPair l fun p => { p with probes := p.probes + 1 }
  s.postLaneState l .opened

/-- LANE_OPEN (R90). -/
def performLaneOpen (body : List Byte) (s : State) : Answer :=
  onLane body s fun l =>
    match (s.lane l).ctl.state with
    | .down | .fault => { state := s.openLane l, body := [statusCode .ok] }
    | .syncing | .up | .held => refuse s .wrongState

def execLaneOpen (seq : Byte) (body : List Byte) (s : State) : Host.Outcome State Fault Refusal :=
  takeRequest s ⟨seq, 0x31, body⟩ 0xB1 (performLaneOpen body)

/-- LANE_RESET as one event, in the order of R101: timers and pair, DOWN, the jobs freed, the transmitter, the controller's
and receiver's values, LANE_STATE. The configuration, the last fault cause and the return list are kept. -/
def State.resetLane (s : State) (l : LaneId) : State :=
  let s := s.modCtl l fun c => { c with probeTimer := none, holdTimer := none, state := .down }
  let s := s.modTx l fun t => { t with ackTimer := none }
  let s := s.modPair l fun _ => TxPair.idle
  let s := s.endJobs l (fun _ => true) .laneReset
  let s := s.modTx l fun _ => Transmitter.initial
  let s := s.modCtl l fun c => { c with window := 0, stationId := 0, probeCount := 0 }
  let s := s.modRcv l fun _ => Receiver.initial
  s.postLaneState l .laneReset

/-- LANE_RESET (R101): accepted in every lane state. -/
def performLaneReset (body : List Byte) (s : State) : Answer :=
  onLane body s fun l => { state := s.resetLane l, body := [statusCode .ok] }

def execLaneReset (seq : Byte) (body : List Byte) (s : State) : Host.Outcome State Fault Refusal :=
  takeRequest s ⟨seq, 0x32, body⟩ 0xB2 (performLaneReset body)

/-- The LANE_STATUS reply (R103, R183). -/
def laneStatusReply (s : State) (l : LaneId) : List Byte :=
  let x := s.lane l
  let cfg := x.ctl.config
  [statusCode .ok, laneStateCode x.ctl.state, faultCauseCode x.ctl.lastFault, natByte cfg.ackTimeout,
      natByte cfg.retryLimit, natByte cfg.holdLimit] ++ natBytes16 cfg.payloadSize ++
    [policyCode cfg.policy, natByte x.ctl.window] ++ bytes16 x.ctl.stationId ++
    [natByte x.tx.inFlight.length, x.tx.nextSeq.zeroExtend 8, natByte x.tx.retry] ++ natBytes16 x.tx.retxTotal ++
    bytes16 (s.tagOf x.sched.running) ++ bytes16 (s.tagOf x.sched.resume) ++
    x.sched.ready.toList.map (fun q => natByte q.length) ++ [natByte x.tx.cancels.length, natByte x.returns.length]

/-- LANE_STATUS (R103): changes no state. -/
def performLaneStatus (body : List Byte) (s : State) : Answer :=
  onLane body s fun l => { state := s, body := laneStatusReply s l }

def execLaneStatus (seq : Byte) (body : List Byte) (s : State) : Host.Outcome State Fault Refusal :=
  takeRequest s ⟨seq, 0x33, body⟩ 0xB3 (performLaneStatus body)

/-- FETCH (R151): the oldest return and the number remaining, or EMPTY. -/
def performFetch (body : List Byte) (s : State) : Answer :=
  onLane body s fun l =>
    match (s.lane l).returns with
    | [] => refuse s .empty
    | r :: rs =>
      { state := s.modLane l fun x => { x with returns := rs }
        body := statusCode .ok :: bytes16 r.tag ++ [r.code, natByte r.body.length] ++ r.body ++ [natByte rs.length] }

def execFetch (seq : Byte) (body : List Byte) (s : State) : Host.Outcome State Fault Refusal :=
  takeRequest s ⟨seq, 0x40, body⟩ 0xC0 (performFetch body)

end Sys2Proof.Machine
end

