-- ==== Sys2Proof/Machine/NoticeRequests.lean ====
section
/-! DEFINITION. NoticeRequests: ACK_NOTICES and REWIND_NOTICES (chapter 9). -/

namespace Sys2Proof.Machine

/-- The notices behind the sent notice with number `n`, and how many were removed with it; none when no sent notice has the
number (R161). -/
def dropThrough (n : BitVec 8) : List Notice → Option (Nat × List Notice)
  | [] => none
  | x :: xs =>
    if x.sent && x.seq == n then some (1, xs) else (dropThrough n xs).map fun r => (r.1 + 1, r.2)

/-- The lost count is examined: OVERFLOW posted and the count cleared when it is above 0 (R162). -/
def reportLost (q : NoticeQueue) : NoticeQueue :=
  if q.lost = 0 then q else { postTo q (.overflow q.lost) with lost := 0 }

/-- ACK_NOTICES (R161, R162). -/
def performAckNotices (body : List Byte) (s : State) : Answer :=
  match body with
  | [n] =>
    match dropThrough n s.notices.items with
    | none => refuse s .badValue
    | some (removed, rest) =>
      { state := { s with notices := reportLost
                            { s.notices with items := rest, sentCount := s.notices.sentCount - removed } }
        body := [statusCode .ok] }
  | _ => refuse s .badLength

def execAckNotices (seq : Byte) (body : List Byte) (s : State) : Host.Outcome State Fault Refusal :=
  takeRequest s ⟨seq, 0x50, body⟩ 0xD0 (performAckNotices body)

/-- Every sent notice becomes unsent (R163). -/
def rewound (q : NoticeQueue) : NoticeQueue :=
  { q with items := q.items.map (fun x => { x with sent := false }), sentCount := 0 }

/-- REWIND_NOTICES (R163). -/
def performRewindNotices (body : List Byte) (s : State) : Answer :=
  if body = [] then { state := { s with notices := rewound s.notices }, body := [statusCode .ok] }
  else refuse s .badLength

def execRewindNotices (seq : Byte) (body : List Byte) (s : State) : Host.Outcome State Fault Refusal :=
  takeRequest s ⟨seq, 0x51, body⟩ 0xD1 (performRewindNotices body)

end Sys2Proof.Machine
end

