-- ==== Sys2Proof/Machine/StagingRequests.lean ====
section
/-! DEFINITION. StagingRequests: IDENTIFY, RESET, WRITE, READ, PIN_MAP and requests of unknown kind. -/

namespace Sys2Proof.Machine

/-- The IDENTIFY reply: identity and capacities (R175, R183). -/
def identifyReply : List Byte :=
  statusCode .ok :: bytes16 Config.vendorCode ++ bytes16 Config.partCode ++ [Config.revision, 8, 48] ++ natBytes16 512 ++
    [64] ++ natBytes16 Config.pageBytes ++ [natByte Config.returnCapacity, natByte Config.noticeCapacity]

/-- IDENTIFY (R175): the fixed identity; changes no state. -/
def performIdentify (body : List Byte) (s : State) : Answer :=
  if body = [] then { state := s, body := identifyReply } else refuse s .badLength

def execIdentify (seq : Byte) (body : List Byte) (s : State) : Host.Outcome State Fault Refusal :=
  takeRequest s ⟨seq, 0x01, body⟩ 0x81 (performIdentify body)

/-- RESET (R176): answered OK; the part reset follows the reply. -/
def performReset (body : List Byte) (s : State) : Answer :=
  if body = [] then { state := s, body := [statusCode .ok], resets := true } else refuse s .badLength

def execReset (seq : Byte) (body : List Byte) (s : State) : Host.Outcome State Fault Refusal :=
  takeRequest s ⟨seq, 0x02, body⟩ 0x82 (performReset body)

/-- WRITE (R27, R28): length, range and pins in this order; then every byte, or none. -/
def performWrite (body : List Byte) (s : State) : Answer :=
  match body with
  | o0 :: o1 :: o2 :: o3 :: data =>
    let x := le32 o0 o1 o2 o3
    if data.length < 1 ∨ Config.maxTransfer < data.length then refuse s .badLength
    else if Config.stagingBytes < x + data.length then refuse s .outOfRange
    else match lowestPinned s.pins x data.length with
      | some p => { state := s, body := [statusCode .pinned, natByte p.val] }
      | none => { state := { s with mem := writeBytes s.mem x data }, body := [statusCode .ok] }
  | _ => refuse s .badLength

def execWrite (seq : Byte) (body : List Byte) (s : State) : Host.Outcome State Fault Refusal :=
  takeRequest s ⟨seq, 0x10, body⟩ 0x90 (performWrite body)

/-- READ (R29): length of the body, length field and range in this order; no pin check. -/
def performRead (body : List Byte) (s : State) : Answer :=
  match body with
  | [o0, o1, o2, o3, l0, l1] =>
    let x := le32 o0 o1 o2 o3
    let n := (le16 l0 l1).toNat
    if n < 1 ∨ Config.maxTransfer < n then refuse s .badValue
    else if Config.stagingBytes < x + n then refuse s .outOfRange
    else { state := s, body := statusCode .ok :: readBytes s.mem x n }
  | _ => refuse s .badLength

def execRead (seq : Byte) (body : List Byte) (s : State) : Host.Outcome State Fault Refusal :=
  takeRequest s ⟨seq, 0x11, body⟩ 0x91 (performRead body)

/-- PIN_MAP (R35): the 64 counts, page 0 first. -/
def performPinMap (body : List Byte) (s : State) : Answer :=
  if body = [] then { state := s, body := statusCode .ok :: s.pins.toList.map natByte } else refuse s .badLength

def execPinMap (seq : Byte) (body : List Byte) (s : State) : Host.Outcome State Fault Refusal :=
  takeRequest s ⟨seq, 0x12, body⟩ 0x92 (performPinMap body)

/-- A request of unknown kind (R171): UNKNOWN_KIND and the kind byte received, whatever the body. -/
def performUnknownKind (kind : Byte) (s : State) : Answer := { state := s, body := [statusCode .unknownKind, kind] }

/-- A request whose kind is in the catalogue is no request of this row, and nothing is taken. -/
def execUnknownKindRequest (seq kind : Byte) (body : List Byte) (s : State) : Host.Outcome State Fault Refusal :=
  if kind ∈ requestKinds then .next s
  else takeRequest s ⟨seq, kind, body⟩ 0xFF (performUnknownKind kind)

end Sys2Proof.Machine
end

