-- ==== Sys2Proof/Machine/StationFrames.lean ====
section
/-! DEFINITION. StationFrames: the frames a station sends, as the Lane Receiver hands them on (R83, R84), and the bytes it
discards. -/

namespace Sys2Proof.Machine

/-- The Lane Receiver hands a well-formed frame on: a frame that begins while it hunts, or one that stands in front of the
bytes it has kept, which are then read on. A frame whose bytes would fall inside a frame being assembled is not handed on. -/
def State.handOn (s : State) (l : LaneId) (frame : List Byte) : Option State :=
  let rx := (s.lane l).rcv.rx
  if rx = [] then some s
  else if frame.isPrefixOf rx then
    some (s.modRcv l fun r => { r with rx := huntLane (rx.length + 1) (rx.drop frame.length) })
  else none

/-- A station frame taken by its owner once it is handed on. -/
def onFrame (s : State) (l : LaneId) (frame : List Byte) (owner : State → Except Fault State) :
    Host.Outcome State Fault Refusal :=
  unlessHeld s
    (match s.handOn l frame with
      | none => .next s
      | some s => outcomeOf (owner s))

/-- HELLO (R84, R92, R93, R137). -/
def State.takeHello (s : State) (l : LaneId) (window : Byte) (stationId : Word16) : State :=
  if window.toNat = 0 ∨ Config.maxWindow < window.toNat then s
  else match (s.lane l).ctl.state with
    | .syncing => s.synchronise l window.toNat stationId
    | .up | .held => s.stationRestart l window.toNat stationId
    | .down | .fault => s

def execHello (l : LaneId) (window : Byte) (stationId : Word16) (s : State) : Host.Outcome State Fault Refusal :=
  onFrame s l (helloBytes window stationId) fun s => .ok (s.takeHello l window stationId)

/-- ACK (R84, R115, R118). -/
def State.takeAck (s : State) (l : LaneId) (n : Byte) : State :=
  match (s.lane l).ctl.state with
  | .up | .held =>
    match splitThrough n.toNat (s.lane l).tx.inFlight with
    | some (removed, rest) => s.acknowledge l removed rest
    | none => s
  | .down | .syncing | .fault => s

def execAck (l : LaneId) (n : Byte) (s : State) : Host.Outcome State Fault Refusal :=
  onFrame s l (ackBytes n) fun s => .ok (s.takeAck l n)

/-- NAK (R84, R119, R120). -/
def State.takeNak (s : State) (l : LaneId) (n : Byte) : Except Fault State :=
  if (s.lane l).tx.inFlight.any fun e => e.seq.toNat == n.toNat then
    match (s.lane l).ctl.state with
    | .up => s.retryOr l fun s =>
        match s.retransmit l (fromSeq (s.lane l).tx.inFlight (n.setWidth 4)) with
        | .error e => .error e
        | .ok s => .ok (s.startAckTimer l)
    | .held => s.retryOr l fun s =>
        .ok (s.modTx l fun t => { t with deferred := some (deferTo t.inFlight t.deferred (n.setWidth 4)) })
    | .down | .syncing | .fault => .ok s
  else .ok s

def execNak (l : LaneId) (n : Byte) (s : State) : Host.Outcome State Fault Refusal :=
  onFrame s l (nakBytes n) fun s => s.takeNak l n

/-- HOLD (R84, R95). -/
def State.takeHold (s : State) (l : LaneId) : State :=
  match (s.lane l).ctl.state with
  | .up =>
    let limit := (s.lane l).ctl.config.holdLimit
    let s := s.modTx l fun t => { t with ackTimer := none }
    let s := s.modCtl l fun c => { c with holdTimer := if limit = 0 then none else some limit, state := .held }
    s.postLaneState l .hold
  | .down | .syncing | .held | .fault => s

def execHold (l : LaneId) (s : State) : Host.Outcome State Fault Refusal :=
  onFrame s l holdBytes fun s => .ok (s.takeHold l)

/-- READY (R84, R97, R121). -/
def State.takeReady (s : State) (l : LaneId) : Except Fault State :=
  match (s.lane l).ctl.state with
  | .held =>
    let s := s.modCtl l fun c => { c with holdTimer := none, state := .up }
    let s := s.postLaneState l .ready
    if (s.lane l).tx.inFlight.isEmpty then .ok s
    else
      let s := s.startAckTimer l
      match (s.lane l).tx.deferred with
      | none => .ok s
      | some d =>
        match s.retransmit l (fromSeq (s.lane l).tx.inFlight d) with
        | .error e => .error e
        | .ok s => .ok (s.modTx l fun t => { t with deferred := none })
  | .down | .syncing | .up | .fault => .ok s

def execReady (l : LaneId) (s : State) : Host.Outcome State Fault Refusal :=
  onFrame s l readyBytes fun s => s.takeReady l

/-- RACK or RNAK joins the answers that wait for the pair, in the order formed (R150). -/
def State.answerStation (s : State) (l : LaneId) (f : LaneFrame) : State :=
  s.modPair l fun p => { p with answers := p.answers ++ [f] }

/-- A REPLY in UP or HELD: a duplicate, refused, or accepted (R147, R148, R149). -/
def State.storeReply (s : State) (l : LaneId) (bit : Bool) (r : Return) : State :=
  let x := s.lane l
  if x.rcv.lastBit = some bit then s.answerStation l (.rack bit)
  else if x.returns.length < Config.returnCapacity then
    let s := s.modLane l fun y => { y with returns := y.returns ++ [r] }
    let s := s.modRcv l fun y => { y with lastBit := some bit }
    let s := s.answerStation l (.rack bit)
    if x.returns.isEmpty then s.post (.returnReady l) else s
  else s.answerStation l (.rnak bit)

/-- REPLY (R84). The reply bit is the lowest bit of its byte (R185). -/
def State.takeReply (s : State) (l : LaneId) (bit : Byte) (r : Return) : State :=
  match (s.lane l).ctl.state with
  | .up | .held => s.storeReply l (bit.getLsbD 0) r
  | .down | .syncing | .fault => s

/-- A REPLY with a body over 64 bytes is no frame that is handed on (R83). -/
def execReply (l : LaneId) (bit : Byte) (tag : Tag) (code : Byte) (body : List Byte) (s : State) :
    Host.Outcome State Fault Refusal :=
  if body.length ≤ Config.maxReplyBody then
    onFrame s l (replyBytes bit tag code body) fun s => .ok (s.takeReply l bit ⟨tag, code, body⟩)
  else .next s

/-- LANE_FRAME_DISCARD (R83): bytes arrive on the receive pair; frames of unknown type, with an oversized body or a bad CRC
are discarded and read again from the byte after their marker, and nothing but the receiver's own bytes changes. -/
def execLaneFrameDiscard (l : LaneId) (bytes : List Byte) (s : State) : Host.Outcome State Fault Refusal :=
  unlessHeld s (.next (s.modRcv l fun r => { r with rx := huntLane ((r.rx ++ bytes).length + 1) (r.rx ++ bytes) }))

end Sys2Proof.Machine
end

