-- ==== Sys2Proof/Machine/Dispatch.lean ====
section
/-! DEFINITION. Dispatch: each command to its meaning. -/

namespace Sys2Proof.Machine

def exec (i : Instr) (s : State) : Host.Outcome State Fault Refusal :=
  match i with
  | .identify seq body => Sys2Proof.Machine.execIdentify seq body s
  | .reset seq body => Sys2Proof.Machine.execReset seq body s
  | .write seq body => Sys2Proof.Machine.execWrite seq body s
  | .read seq body => Sys2Proof.Machine.execRead seq body s
  | .pinMap seq body => Sys2Proof.Machine.execPinMap seq body s
  | .submit seq body => Sys2Proof.Machine.execSubmit seq body s
  | .suspend seq body => Sys2Proof.Machine.execSuspend seq body s
  | .resume seq body => Sys2Proof.Machine.execResume seq body s
  | .abort seq body => Sys2Proof.Machine.execAbort seq body s
  | .jobStatus seq body => Sys2Proof.Machine.execJobStatus seq body s
  | .laneConfig seq body => Sys2Proof.Machine.execLaneConfig seq body s
  | .laneOpen seq body => Sys2Proof.Machine.execLaneOpen seq body s
  | .laneReset seq body => Sys2Proof.Machine.execLaneReset seq body s
  | .laneStatus seq body => Sys2Proof.Machine.execLaneStatus seq body s
  | .fetch seq body => Sys2Proof.Machine.execFetch seq body s
  | .ackNotices seq body => Sys2Proof.Machine.execAckNotices seq body s
  | .rewindNotices seq body => Sys2Proof.Machine.execRewindNotices seq body s
  | .unknownKindRequest seq kind body => Sys2Proof.Machine.execUnknownKindRequest seq kind body s
  | .hostFrameReceived bytes => Sys2Proof.Machine.execHostFrameReceived bytes s
  | .gapDiscard => Sys2Proof.Machine.execGapDiscard s
  | .replySend => Sys2Proof.Machine.execReplySend s
  | .replySent => Sys2Proof.Machine.execReplySent s
  | .noticeSend => Sys2Proof.Machine.execNoticeSend s
  | .hostRequestReset straps => Sys2Proof.Machine.execHostRequestReset straps s
  | .powerOn straps => Sys2Proof.Machine.execPowerOn straps s
  | .resetnLow => Sys2Proof.Machine.execResetnLow s
  | .resetPin straps => Sys2Proof.Machine.execResetPin straps s
  | .hello lane window stationId => Sys2Proof.Machine.execHello lane window stationId s
  | .ack lane n => Sys2Proof.Machine.execAck lane n s
  | .nak lane n => Sys2Proof.Machine.execNak lane n s
  | .hold lane => Sys2Proof.Machine.execHold lane s
  | .ready lane => Sys2Proof.Machine.execReady lane s
  | .reply lane bitByte tag code body => Sys2Proof.Machine.execReply lane bitByte tag code body s
  | .laneFrameDiscard lane bytes => Sys2Proof.Machine.execLaneFrameDiscard lane bytes s
  | .probeTimerExpiry lane => Sys2Proof.Machine.execProbeTimerExpiry lane s
  | .holdTimerExpiry lane => Sys2Proof.Machine.execHoldTimerExpiry lane s
  | .ackTimerExpiry lane => Sys2Proof.Machine.execAckTimerExpiry lane s
  | .dataCut lane => Sys2Proof.Machine.execDataCut lane s
  | .cancelCut lane => Sys2Proof.Machine.execCancelCut lane s
  | .laneFrameSend lane => Sys2Proof.Machine.execLaneFrameSend lane s
  | .noticeFrameEnd => Sys2Proof.Machine.execNoticeFrameEnd s

end Sys2Proof.Machine
end

