-- ==== Sys2Proof/Safety.lean ====
section
/-! DEFINITION. Safety: the laws the spec states of the part's state. A safe run keeps them. -/

namespace Sys2Proof.Machine

/-! ### Staging memory -/

/-- Staging memory keeps its canonical form. -/
def MemoryLaw (s : State) : Prop := memoryWf s.mem = true

/-! ### The Notice Queue (R157) -/

/-- Notices numbered consecutively modulo 256, the last number below `next`. -/
def numberedTo (next : BitVec 8) : List Notice → Bool
  | [] => true
  | x :: xs => x.seq + BitVec.ofNat 8 (xs.length + 1) == next && numberedTo next xs

/-- At most 64 notices, at most 8 of them sent; the sent ones are the first, as many as the sent count; the numbers run
consecutively up to the next number; the lost count holds at 65535 (R157, R159). -/
def NoticeLaw (q : NoticeQueue) : Prop :=
  q.items.length ≤ Config.noticeCapacity ∧ q.sentCount ≤ Config.noticeWindow ∧ q.sentCount ≤ q.items.length ∧
  (∀ x ∈ q.items.take q.sentCount, x.sent = true) ∧ (∀ x ∈ q.items.drop q.sentCount, x.sent = false) ∧
  numberedTo q.nextSeq q.items = true ∧ q.lost ≤ Config.counterCeiling

/-! ### The host link (R170, R172) -/

/-- At most 4 requests held, at most 4 records, and the records' seq values all different. -/
def HostLaw (h : HostLink) : Prop :=
  h.holding.length ≤ Config.holdingCapacity ∧ h.memory.length ≤ Config.memoryCapacity ∧
  (h.memory.map (·.seq)).Nodup

/-! ### A lane (R85, R106, R113, R145) -/

/-- Sequence numbers consecutive modulo 16, the last one below `next`. -/
def sequencedTo (next : BitVec 4) : List InFlight → Bool
  | [] => true
  | e :: es => e.seq + BitVec.ofNat 4 (es.length + 1) == next && sequencedTo next es

/-- The in-flight list holds at most the window's frames, never more than 8, with consecutive numbers, and is empty
outside UP and HELD (R106). -/
def WindowLaw (x : Lane) : Prop :=
  x.tx.inFlight.length ≤ x.ctl.window ∧ x.ctl.window ≤ Config.maxWindow ∧
  sequencedTo x.tx.nextSeq x.tx.inFlight = true ∧
  (x.ctl.state ≠ .up → x.ctl.state ≠ .held → x.tx.inFlight = [])

/-- The probe timer runs in SYNCING alone, the hold timer in HELD alone, and the ack timer exactly in UP with frames in
flight (R91, R95, R113). -/
def TimerLaw (x : Lane) : Prop :=
  (x.ctl.probeTimer.isSome = true ↔ x.ctl.state = .syncing) ∧
  (x.ctl.holdTimer.isSome = true → x.ctl.state = .held) ∧
  (x.tx.ackTimer.isSome = true ↔ x.ctl.state = .up ∧ x.tx.inFlight ≠ [])

/-- The settings lie in their ranges, the retry count never exceeds the retry limit and is 0 outside UP and HELD (R88, R92,
R103). -/
def SettingsLaw (x : Lane) : Prop :=
  1 ≤ x.ctl.config.ackTimeout ∧ x.ctl.config.ackTimeout ≤ 255 ∧ 1 ≤ x.ctl.config.retryLimit ∧
  x.ctl.config.retryLimit ≤ 7 ∧ x.ctl.config.holdLimit ≤ 60 ∧
  (x.ctl.config.payloadSize = 64 ∨ x.ctl.config.payloadSize = 128 ∨ x.ctl.config.payloadSize = 256 ∨
    x.ctl.config.payloadSize = 512) ∧
  x.tx.retry ≤ x.ctl.config.retryLimit ∧ (x.ctl.state ≠ .up → x.ctl.state ≠ .held → x.tx.retry = 0) ∧
  x.ctl.probeCount ≤ Config.maxProbes ∧
  x.tx.retxTotal ≤ Config.counterCeiling

/-- A return list never holds more than 32 entries, each with a body of at most 64 bytes (R145). -/
def ReturnLaw (x : Lane) : Prop :=
  x.returns.length ≤ Config.returnCapacity ∧ ∀ r ∈ x.returns, r.body.length ≤ Config.maxReplyBody

/-- All that is said of one lane by itself. -/
def LaneLaw (x : Lane) : Prop := WindowLaw x ∧ TimerLaw x ∧ SettingsLaw x ∧ ReturnLaw x

/-! ### Jobs -/

/-- A FREE record has every field at its cleared value (R8). -/
def ClearedLaw (s : State) : Prop := ∀ c, (s.ctx c).state = .free → s.ctx c = {}

/-- Free entries plus the segment counts of all contexts is always 512 (R5); the count is the length of the segment list,
and a FREE context has none. -/
def PoolLaw (s : State) : Prop :=
  s.freeList.length + (allCtxs.map fun c => (s.ctx c).segCount).sum = 512 ∧
  ∀ c, (s.ctx c).segCount = (s.ctx c).segs.length ∧ ((s.ctx c).state = .free → (s.ctx c).segs = [])

/-- Every pool entry is on the free list or held by one context, once (R5). -/
def PartitionLaw (s : State) : Prop := (s.freeList ++ allCtxs.flatMap fun c => (s.ctx c).segs).Perm (List.finRange 512)

/-- Every held segment is valid: it was checked at admission (R2, R30). -/
def SegmentLaw (s : State) : Prop :=
  ∀ c, ∀ g ∈ s.jobSegments c, 1 ≤ g.length ∧ g.length ≤ Config.maxSegmentBytes ∧
    g.offset + g.length ≤ Config.stagingBytes

/-- No two contexts hold the same tag, but for tag 0, which every FREE record holds (R8, R10). -/
def TagLaw (s : State) : Prop :=
  (∀ c, (s.ctx c).state = .free → (s.ctx c).tag = 0) ∧
  ∀ c d, (s.ctx c).tag ≠ 0 → (s.ctx c).tag = (s.ctx d).tag → c = d

/-- A page's pin count is the number of non-FREE contexts with a segment touching it (R31). -/
def PinLaw (s : State) : Prop :=
  ∀ p : PageId, s.pins[p] =
    (allCtxs.filter fun c => (s.ctx c).state != .free && touches (s.jobSegments c) p.val).length

/-- What the Context Table, the segment pool and the Page Pin Table hold together. -/
def StoreLaw (s : State) : Prop := PoolLaw s ∧ PartitionLaw s ∧ SegmentLaw s ∧ PinLaw s

/-- Acked is at most sent, sent at most the count, and a DRAINING job has cut every segment (R11). -/
def PositionLaw (s : State) : Prop :=
  ∀ c, (s.ctx c).acked ≤ (s.ctx c).sent ∧ (s.ctx c).sent ≤ (s.ctx c).segCount ∧
    ((s.ctx c).state = .draining → (s.ctx c).sent = (s.ctx c).segCount) ∧ (s.ctx c).resend ≤ (s.ctx c).segCount

/-- The chain of a lane from a link on, with a bound on its length (R40). -/
def chainFrom (s : State) : Nat → Option CtxId → List CtxId
  | 0, _ => []
  | _, none => []
  | n + 1, some c => c :: chainFrom s n (s.ctx c).link

/-- The chain of a lane: from the running job's return link, or from the resume point when no job runs (R40). -/
def chainOf (s : State) (l : LaneId) : List CtxId :=
  match (s.lane l).sched.running with
  | some c => chainFrom s 4 (s.ctx c).link
  | none => chainFrom s 4 (s.lane l).sched.resume

/-- The places a context stands in, over all lanes: each entry of a ready queue, each running slot, each chain (R39). -/
def places (s : State) (l : LaneId) : List CtxId :=
  ((List.finRange 4).flatMap fun k => (s.lane l).sched.ready[k]) ++ (s.lane l).sched.running.toList ++ chainOf s l

/-- Every non-FREE context is in exactly the place that matches its state (R39). -/
def PlaceLaw (s : State) : Prop :=
  ∀ c, let x := s.ctx c
    (∀ l, (s.lane l).sched.ready.toList.flatten.count c =
      if x.state = .queued ∧ x.lane = l then 1 else 0) ∧
    (x.state = .queued → c ∈ (s.lane x.lane).sched.ready[x.cls]) ∧
    (∀ l, (s.lane l).sched.running = some c ↔ x.state = .running ∧ x.lane = l) ∧
    (∀ l, (chainOf s l).count c = if x.state = .preempted ∧ x.lane = l then 1 else 0) ∧
    (x.state ≠ .running → x.state ≠ .preempted → x.link = none) ∧
    (x.state ≠ .running → x.suspendPending = false)

/-- The chain passes only PREEMPTED contexts of the lane, each of strictly lower priority than the one before it and than
the running job; a lane with a running job has no resume point (R40). -/
def ChainLaw (s : State) : Prop :=
  ∀ l, (chainOf s l).length ≤ 3 ∧
    (∀ c ∈ chainOf s l, (s.ctx c).state = .preempted ∧ (s.ctx c).lane = l) ∧
    ((s.lane l).sched.running.toList ++ chainOf s l).Pairwise (fun a b => (s.ctx a).cls < (s.ctx b).cls) ∧
    ((s.lane l).sched.running.isSome = true → (s.lane l).sched.resume = none)

/-- In UP and HELD the running slot is empty only while there is no candidate (R42). -/
def IdleLaw (s : State) : Prop :=
  ∀ l, selects (s.lane l).ctl.state = true → (s.lane l).sched.running = none →
    (s.lane l).sched.resume = none ∧ bestReady (s.lane l).sched.ready = none

/-- Every ABORTING context has exactly one CANCEL, on its lane's cancel list or in its lane's in-flight list, and no other
context has one (R75). -/
def CancelLaw (s : State) : Prop :=
  ∀ c l, ((s.lane l).tx.cancels.filter fun e => e.ctx == c).length +
      ((s.lane l).tx.inFlight.filter fun e => e.ctx == c && e.what == .cancel).length =
    if (s.ctx c).state = .aborting ∧ (s.ctx c).lane = l then 1 else 0

/-- A job that drains or aborts has started (R62). -/
def StartedLaw (s : State) : Prop :=
  ∀ c, (s.ctx c).state = .draining ∨ (s.ctx c).state = .aborting → (s.ctx c).started = true

/-- What the Lane Schedulers, the cancel lists and the states of the contexts hold together (R39, R40, R42, R75). -/
def ScheduleLaw (s : State) : Prop := PlaceLaw s ∧ ChainLaw s ∧ IdleLaw s ∧ CancelLaw s ∧ StartedLaw s

/-- Each in-flight entry's context is a non-FREE context of the lane (R106). -/
def FlightLaw (s : State) : Prop :=
  ∀ l, ∀ e ∈ (s.lane l).tx.inFlight, (s.ctx e.ctx).state ≠ .free ∧ (s.ctx e.ctx).lane = l

/-- The DATA entries of a context in an in-flight list: segment, frame, and whether the frame is its segment's last. -/
def framesOf (es : List InFlight) (c : CtxId) : List (Nat × Nat × Bool) :=
  es.filterMap fun e => match e.what with
    | .data k f flags => if e.ctx = c then some (k, f, flags.last) else none
    | .cancel => none

/-- Frames that stand one behind another from one place, a segment and a frame of it, to another (R12, R108). -/
def runsTo : Nat × Nat → List (Nat × Nat × Bool) → Nat × Nat → Bool
  | p, [], q => p == q
  | p, (k, f, last) :: rest, q => p == (k, f) && runsTo (if last then (k + 1, 0) else (k, f + 1)) rest q

/-- The segment exists, and the frame begins inside it at the lane's payload size (R108). -/
def frameExists (s : State) (c : CtxId) (k f : Nat) : Bool :=
  match s.segmentAt c k with
  | some g => f * (s.lane (s.ctx c).lane).ctl.config.payloadSize < g.length
  | none => false

/-- What the contexts and the in-flight lists hold together: every entry is of a job of its lane and names a frame that
exists; a CANCEL is the last entry of its job; the DATA entries of a job run from its acked position to its sent and cut
positions; and the positions are as its state asks (R11, R12, R75, R106). -/
def FlowLaw (s : State) : Prop :=
  (∀ l, ∀ e ∈ (s.lane l).tx.inFlight, (s.ctx e.ctx).state ≠ .free ∧ (s.ctx e.ctx).lane = l ∧
    ∀ k f flags, e.what = .data k f flags → frameExists s e.ctx k f = true) ∧
  (∀ l, (s.lane l).tx.inFlight.Pairwise fun a b => a.what = .cancel → b.ctx ≠ a.ctx) ∧
  ∀ c, let x := s.ctx c
    (x.state = .free → x = {}) ∧
    (∃ f, runsTo (x.acked, f) (framesOf (s.lane x.lane).tx.inFlight c) (x.sent, x.cut) = true) ∧
    x.sent ≤ x.segCount ∧ x.resend ≤ x.segCount ∧ (x.cut ≠ 0 → frameExists s c x.sent x.cut = true) ∧
    (x.state = .draining → x.sent = x.segCount ∧ x.acked < x.segCount) ∧
    ((x.state = .queued ∨ x.state = .running ∨ x.state = .preempted ∨ x.state = .suspended) → x.sent < x.segCount) ∧
    (x.state ≠ .running → x.state ≠ .aborting → x.cut = 0) ∧
    (x.started = false → x.acked = 0 ∧ x.sent = 0 ∧ x.cut = 0) ∧
    (selects (s.lane x.lane).ctl.state = false → x.cut = 0)

/-! ### The words the claims are stated in -/

/-- The request a request command stands for. A kind of the catalogue is no request of unknown kind (R171). -/
def requestOf : Instr → Option Request
  | .identify seq body => some ⟨seq, 0x01, body⟩
  | .reset seq body => some ⟨seq, 0x02, body⟩
  | .write seq body => some ⟨seq, 0x10, body⟩
  | .read seq body => some ⟨seq, 0x11, body⟩
  | .pinMap seq body => some ⟨seq, 0x12, body⟩
  | .submit seq body => some ⟨seq, 0x20, body⟩
  | .suspend seq body => some ⟨seq, 0x21, body⟩
  | .resume seq body => some ⟨seq, 0x22, body⟩
  | .abort seq body => some ⟨seq, 0x23, body⟩
  | .jobStatus seq body => some ⟨seq, 0x24, body⟩
  | .laneConfig seq body => some ⟨seq, 0x30, body⟩
  | .laneOpen seq body => some ⟨seq, 0x31, body⟩
  | .laneReset seq body => some ⟨seq, 0x32, body⟩
  | .laneStatus seq body => some ⟨seq, 0x33, body⟩
  | .fetch seq body => some ⟨seq, 0x40, body⟩
  | .ackNotices seq body => some ⟨seq, 0x50, body⟩
  | .rewindNotices seq body => some ⟨seq, 0x51, body⟩
  | .unknownKindRequest seq kind body => if kind ∈ requestKinds then none else some ⟨seq, kind, body⟩
  | _ => none

/-- The kind of the reply to a request (R171). -/
def replyKindOf (r : Request) : Byte := if r.kind ∈ requestKinds then r.kind + 0x80 else 0xFF

/-- The Request Decoder takes the request now, and no record of the reply memory answers it: it is performed (R171, R173). -/
def performs (s : State) (r : Request) : Prop :=
  s.heldInReset = false ∧ resetAwaited s.host = false ∧ nextRequest s.host.holding = some r ∧
    storedReply s.host.memory r.seq r.kind = none

/-- A state in which the request has been taken and answered with a reply body: taken in the holding list, recorded in the
reply memory, its reply pending (R171, R172). -/
def State.answered (s : State) (r : Request) (body : List Byte) (resets : Bool := false) : State :=
  let frame : HostFrame := ⟨r.seq, replyKindOf r, body⟩
  { s with host := { s.host with
      holding := markTaken s.host.holding
      memory := remember s.host.memory ⟨r.seq, r.kind, frame⟩
      replies := s.host.replies ++ [⟨frame, resets⟩] } }

/-- Context `c` is the one non-FREE context that holds the tag (R10). -/
def holdsTag (s : State) (tag : Tag) (c : CtxId) : Prop :=
  tag ≠ 0 ∧ (s.ctx c).state ≠ .free ∧ (s.ctx c).tag = tag ∧
    ∀ d, (s.ctx d).state ≠ .free → (s.ctx d).tag = tag → d = c

/-- Bytes `x` to `x + n - 1` touch page `p` (R3, R26). -/
def touchesPage (x n p : Nat) : Prop := x / 2048 ≤ p ∧ p ≤ (x + n - 1) / 2048

/-- The body of a SUBMIT (R182). -/
def descriptorBytes (d : Descriptor) : List Byte :=
  bytes32 (BitVec.ofNat 32 d.offset) ++ natBytes16 d.length ++ [d.flags]

def submitBody (lane cls : Byte) (tag : Tag) (count : Byte) (ds : List Descriptor) : List Byte :=
  lane :: cls :: (bytes16 tag ++ count :: ds.flatMap descriptorBytes)

/-- A valid segment in the spec's numbers (R2). -/
def validSegment (d : Descriptor) : Prop :=
  1 ≤ d.length ∧ d.length ≤ 8192 ∧ d.offset + d.length ≤ 131072 ∧ d.flags.toNat < 4

/-- The Lane Receiver hands a well-formed frame on, its own bytes then as in `u` (R83, R84). -/
def handsOn (s : State) (l : LaneId) (frame : List Byte) (u : State) : Prop :=
  s.heldInReset = false ∧ s.handOn l frame = some u

/-- The frame of an in-flight entry can be formed: its segment exists and lies in staging memory. -/
def formable (s : State) (l : LaneId) (e : InFlight) : Prop :=
  ∀ k f flags, e.what = .data k f flags → ∃ g, s.segmentAt e.ctx k = some g ∧
    f * (s.lane l).ctl.config.payloadSize < g.length ∧ g.offset + g.length ≤ 131072

/-- The frame an in-flight entry records, byte for byte (R108, R111, R122). -/
def frameOf (s : State) (l : LaneId) (e : InFlight) : LaneFrame :=
  match e.what with
  | .cancel => .cancel e.seq (s.ctx e.ctx).tag
  | .data k f flags =>
    let p := (s.lane l).ctl.config.payloadSize
    let g := (s.segmentAt e.ctx k).getD {}
    .data e.seq (s.ctx e.ctx).tag k f flags (readBytes s.mem (g.offset + f * p) (min p (g.length - f * p)))

/-- The state in which the frames of some in-flight entries have been formed again: waiting copies of them are gone, one new
copy of each waits behind the other frames, in list order, and the total counts them (R122). -/
def State.resent (s : State) (l : LaneId) (es : List InFlight) : State :=
  let copies := es.map fun e => WaitingFrame.mk (frameOf s l e) (some e.seq)
  let kept := (s.lane l).pair.frames.filter fun w => !(es.any fun e => w.copyOf == some e.seq)
  s.modLane l fun x => { x with
    tx := { x.tx with retxTotal := min 65535 (x.tx.retxTotal + es.length) }
    pair := { x.pair with frames := kept ++ copies } }

/-- The position in an in-flight list of a context's oldest DATA frame; the list's length when it has none (R131). -/
def oldestFrame (es : List InFlight) (c : CtxId) : Nat := es.findIdx fun e => e.ctx == c && e.what != .cancel

/-- The class `k` queue is the first that is not empty, and `c` is its head (R38). -/
def bestHead (ready : Vector (List CtxId) 4) (k : ClassId) (c : CtxId) (q : List CtxId) : Prop :=
  ready[k] = c :: q ∧ ∀ j : ClassId, j < k → ready[j] = []

/-- The bytes of a well-formed frame of one of the six station types (R185). -/
def isStationFrame (frame : List Byte) : Prop :=
  (∃ window stationId, frame = helloBytes window stationId) ∨ (∃ n, frame = ackBytes n) ∨ (∃ n, frame = nakBytes n) ∨
    frame = holdBytes ∨ frame = readyBytes ∨
    ∃ bit tag code body, body.length ≤ 64 ∧ frame = replyBytes bit tag code body

end Sys2Proof.Machine
end

