-- ==== Sys2Proof/Certificates/Slice0/Obligations.lean ====
section
/-! DEFINITION. Obligations: what the model is claimed to do, in the spec's order: the host link, requests, jobs, the
scheduler, the station link, transmission, faults, returns, notices, resets, and the laws that every step keeps. -/

open Sys2Proof Sys2Proof.Machine

/-! ### The queue of commands and the links' bytes -/

/-- A step takes the command at the front of the queue and is its meaning on the state with the queue's rest. -/
def Obligations.StepRunsTheFrontCommand : Prop :=
  ∀ (c : Instr) (rest : List Instr) (s : State), step { s with pending := c :: rest } = exec c { s with pending := rest }

/-- The check values of the CRC, and the example frames of the spec byte for byte (R180, R181, R185). -/
def Obligations.CrcAndExampleFrames : Prop :=
  crc16 [0x31, 0x32, 0x33, 0x34, 0x35, 0x36, 0x37, 0x38, 0x39] = 0x29B1 ∧ crc16 [0x01] = 0xF1D1 ∧
  hostFrameBytes 5 0x01 [] = [0x7E, 0x02, 0x00, 0x05, 0x01, 0x7C, 0x86] ∧
  laneFrameBytes .probe = [0x7E, 0x01, 0xD1, 0xF1]

/-- The hunter finds a host link frame behind bytes that hold no marker, reads seq, kind and body as they were sent, and
reads on behind it; and bytes on HRXD may arrive in pieces: the part is the same after them as after all of them together
(R168, R170, R181). -/
def Obligations.HostFramesAreReadBackInAnyPieces : Prop :=
  (∀ (seq kind : Byte) (body noise more : List Byte), body.length ≤ 520 → Config.marker ∉ noise →
    let bytes := noise ++ hostFrameBytes seq kind body ++ more
    let later := huntHost false (more.length + 1) more
    huntHost false (bytes.length + 1) bytes = (⟨seq, kind, body⟩ :: later.1, later.2)) ∧
  ∀ (s : State) (a b : List Byte), s.heldInReset = false →
    ∃ t u, exec (.hostFrameReceived a) s = .next t ∧ exec (.hostFrameReceived b) t = .next u ∧
      exec (.hostFrameReceived (a ++ b)) s = .next u

/-- A request whose frame is completed while the hunter is HUNTING joins the tail of the holding list, and is discarded when
four are held. A frame whose length or CRC fails its test is discarded: the bytes behind its marker are read again, and
nothing else comes of it; with no marker among them there is no effect, and a good frame that begins among them is received
whole (R169, R170). -/
def Obligations.HostFrameJoinsHoldingList : Prop :=
  ∀ (s : State), s.heldInReset = false → s.host.hunter = [] →
    (∀ (seq kind : Byte) (body : List Byte), body.length ≤ 520 → s.host.holding.length < 4 →
      exec (.hostFrameReceived (hostFrameBytes seq kind body)) s = .next { s with host := { s.host with
        holding := s.host.holding ++ [⟨⟨seq, kind, body⟩, false⟩] } }) ∧
    (∀ (seq kind : Byte) (body : List Byte), body.length ≤ 520 → 4 ≤ s.host.holding.length →
      exec (.hostFrameReceived (hostFrameBytes seq kind body)) s = .next s) ∧
    (∀ (lo hi : Byte) (more : List Byte), Config.marker ∉ lo :: hi :: more →
      (le16 lo hi).toNat < 2 ∨ 522 < (le16 lo hi).toNat ∨
        (more.length = (le16 lo hi).toNat + 2 ∧
          crcBytes (lo :: hi :: more.take (le16 lo hi).toNat) ≠ more.drop (le16 lo hi).toNat) →
      exec (.hostFrameReceived (Config.marker :: lo :: hi :: more)) s = .next s) ∧
    (∀ (lo hi : Byte) (more : List Byte),
      (le16 lo hi).toNat < 2 ∨ 522 < (le16 lo hi).toNat ∨
        ((le16 lo hi).toNat + 2 ≤ more.length ∧
          crcBytes (lo :: hi :: more.take (le16 lo hi).toNat) ≠ (more.drop (le16 lo hi).toNat).take 2) →
      exec (.hostFrameReceived (Config.marker :: lo :: hi :: more)) s = exec (.hostFrameReceived (lo :: hi :: more)) s ∧
      ∀ (noise : List Byte) (seq kind : Byte) (body : List Byte), Config.marker ∉ noise → body.length ≤ 520 →
        lo :: hi :: more = noise ++ hostFrameBytes seq kind body → s.host.holding.length < 4 →
        exec (.hostFrameReceived (Config.marker :: lo :: hi :: more)) s = .next { s with host := { s.host with
          holding := s.host.holding ++ [⟨⟨seq, kind, body⟩, false⟩] } })

/-- A gap of more than 5 ms: the frame being collected is discarded, what stands behind its marker is read again, and the
hunter ends HUNTING (the model's choice for frames the reading again leaves incomplete: log 5); a good frame behind the old
marker is received whole; HUNTING, a gap changes nothing (R169). -/
def Obligations.GapDiscardReadsAgain : Prop :=
  ∀ (s : State), s.heldInReset = false →
    (s.host.hunter = [] → exec .gapDiscard s = .next s) ∧
    (∀ bytes, s.host.hunter = Config.marker :: bytes → scanHostFrame bytes = .incomplete → Config.marker ∉ bytes →
      exec .gapDiscard s = .next { s with host := { s.host with hunter := [] } }) ∧
    (∀ noise seq kind body, s.host.hunter = Config.marker :: (noise ++ hostFrameBytes seq kind body) →
      scanHostFrame (noise ++ hostFrameBytes seq kind body) = .incomplete → Config.marker ∉ noise → body.length ≤ 520 →
      exec .gapDiscard s = .next { s with host := { s.host with
        hunter := [], holding := joinHolding s.host.holding ⟨seq, kind, body⟩ } }) ∧
    ∃ t, exec .gapDiscard s = .next t ∧ t.host.hunter = [] ∧
      t = { s with host := { s.host with hunter := [], holding := t.host.holding } }

/-! ### Requests in general -/

/-- A request command acts only in its turn: while the part is held in reset, while a RESET's reply is awaited, or when the
oldest request not yet taken is another one, the state stays as it is (the model's choice: log 2; R171, R176). -/
def Obligations.RequestOutOfTurnIsNotTaken : Prop :=
  ∀ (c : Instr) (r : Request) (s : State), requestOf c = some r →
    (s.heldInReset = true ∨ resetAwaited s.host = true ∨ nextRequest s.host.holding ≠ some r) → exec c s = .next s

/-- A duplicate of a recorded request, of any kind and whatever its body, is answered with the stored reply and not
performed (R173). -/
def Obligations.DuplicateGetsTheStoredReply : Prop :=
  ∀ (c : Instr) (r : Request) (s : State) (frame : HostFrame), requestOf c = some r → s.heldInReset = false →
    resetAwaited s.host = false → nextRequest s.host.holding = some r →
    storedReply s.host.memory r.seq r.kind = some frame →
    exec c s = .next { s with host := { s.host with
      holding := markTaken s.host.holding, replies := s.host.replies ++ [⟨frame, false⟩] } }

/-- Every request performed is answered exactly once: its reply carries its seq, the reply kind of its kind and a body that
begins with a status code; it is recorded and pending behind the earlier replies, the request is taken, and the rest of the
Host Link stays (R171, R172, R183). -/
def Obligations.EveryRequestIsAnsweredOnce : Prop :=
  ∀ (c : Instr) (r : Request) (s : State), requestOf c = some r → performs s r →
    ∃ t body resets, ∃ st : Status, exec c s = .next t ∧ body.head? = some (statusCode st) ∧
      t.host = (s.answered r body resets).host ∧ (resets = true ↔ r.kind = 0x02 ∧ r.body = []) ∧
      t.heldInReset = s.heldInReset ∧ t.powerOnDue = s.powerOnDue ∧ t.pending = s.pending

/-- The reply memory after a request is recorded: its record is found, it is the newest, at most four stand, their seqs all
differ; a record of the same seq goes first, then the oldest of four, and every other record keeps its place (R172, R173). -/
def Obligations.ReplyMemoryKeepsTheLastFour : Prop :=
  ∀ (memory : List Record) (m : Record), memory.length ≤ 4 → (memory.map (·.seq)).Nodup →
    storedReply (remember memory m) m.seq m.kind = some m.reply ∧
    (remember memory m).length ≤ 4 ∧ ((remember memory m).map (·.seq)).Nodup ∧
    (∀ before old after, memory = before ++ old :: after → old.seq = m.seq → remember memory m = before ++ after ++ [m]) ∧
    (m.seq ∉ memory.map (·.seq) → memory.length < 4 → remember memory m = memory ++ [m]) ∧
    (m.seq ∉ memory.map (·.seq) → memory.length = 4 → remember memory m = memory.tail ++ [m])

/-! ### IDENTIFY, unknown kinds, RESET -/

/-- IDENTIFY is answered with the fixed identity and capacities in every state of the part, and refused with BAD_LENGTH when
its body is not empty; a request of a kind outside the catalogue is answered UNKNOWN_KIND with the kind byte, under reply
kind 0xFF, whatever its body. Nothing else changes (R171, R175). -/
def Obligations.IdentifyAndUnknownKindsAreAnswered : Prop :=
  ∀ (s : State) (seq kind : Byte) (body : List Byte),
    (performs s ⟨seq, 0x01, body⟩ → body = [] → exec (.identify seq body) s = .next (s.answered ⟨seq, 0x01, body⟩
      [0, 0x47, 0x50, 0x48, 0x08, 3, 8, 48, 0x00, 0x02, 64, 0x00, 0x08, 32, 64])) ∧
    (performs s ⟨seq, 0x01, body⟩ → body ≠ [] →
      exec (.identify seq body) s = .next (s.answered ⟨seq, 0x01, body⟩ [statusCode .badLength])) ∧
    (performs s ⟨seq, kind, body⟩ → kind ∉ requestKinds →
      exec (.unknownKindRequest seq kind body) s = .next (s.answered ⟨seq, kind, body⟩ [statusCode .unknownKind, kind]) ∧
      replyKindOf ⟨seq, kind, body⟩ = 0xFF)

/-- RESET with an empty body is answered OK, and from then until its reply has been sent the Request Decoder takes no
request: the reply is awaited, or the part is held in reset, after every command but a part reset, and while that is so no
request command changes anything. With a body it is refused with BAD_LENGTH and performs no reset. (R176; the record that the
RESET adds to the reply memory is the model's reading: log 14.) -/
def Obligations.ResetRequestBlocksTheDecoder : Prop :=
  (∀ (s : State) (seq : Byte) (body : List Byte), performs s ⟨seq, 0x02, body⟩ →
    (body = [] → ∃ t, exec (.reset seq body) s = .next t ∧ t = s.answered ⟨seq, 0x02, body⟩ [statusCode .ok] true ∧
      resetAwaited t.host = true) ∧
    (body ≠ [] → exec (.reset seq body) s = .next (s.answered ⟨seq, 0x02, body⟩ [statusCode .badLength]))) ∧
  ∀ (s : State), s.heldInReset = true ∨ resetAwaited s.host = true →
    (∀ c r, requestOf c = some r → exec c s = .next s) ∧
    ∀ c t, (∀ straps, c ≠ .hostRequestReset straps ∧ c ≠ .powerOn straps ∧ c ≠ .resetPin straps) → exec c s = .next t →
      t.heldInReset = true ∨ resetAwaited t.host = true

/-! ### Staging memory -/

/-- The checks of WRITE in their order: body length, range (the sum in full), pins; the first that fails gives the reply,
and nothing else changes (R27). -/
def Obligations.WriteIsCheckedInOrder : Prop :=
  ∀ (s : State) (seq : Byte) (body : List Byte), performs s ⟨seq, 0x10, body⟩ →
    (body.length < 5 ∨ 516 < body.length →
      exec (.write seq body) s = .next (s.answered ⟨seq, 0x10, body⟩ [statusCode .badLength])) ∧
    ∀ (x : BitVec 32) (data : List Byte), body = bytes32 x ++ data → 1 ≤ data.length → data.length ≤ 512 →
      (131072 < x.toNat + data.length →
        exec (.write seq body) s = .next (s.answered ⟨seq, 0x10, body⟩ [statusCode .outOfRange])) ∧
      (x.toNat + data.length ≤ 131072 → ∀ p : PageId, touchesPage x.toNat data.length p.val → s.pins[p] ≠ 0 →
        (∀ q : PageId, q < p → touchesPage x.toNat data.length q.val → s.pins[q] = 0) →
        exec (.write seq body) s =
          .next (s.answered ⟨seq, 0x10, body⟩ [statusCode .pinned, BitVec.ofNat 8 p.val]))

/-- A WRITE that passes its checks places its bytes at its offset and the ascending ones, leaves every other byte, is
answered OK, and changes nothing else (R28). -/
def Obligations.WritePlacesEveryByte : Prop :=
  ∀ (s : State) (seq : Byte) (x : BitVec 32) (data : List Byte), MemoryLaw s →
    performs s ⟨seq, 0x10, bytes32 x ++ data⟩ → 1 ≤ data.length → data.length ≤ 512 → x.toNat + data.length ≤ 131072 →
    (∀ p : PageId, touchesPage x.toNat data.length p.val → s.pins[p] = 0) →
    ∃ m, exec (.write seq (bytes32 x ++ data)) s =
        .next (State.answered { s with mem := m } ⟨seq, 0x10, bytes32 x ++ data⟩ [statusCode .ok]) ∧
      (∀ i (h : i < data.length), readByte m (x.toNat + i) = data[i]) ∧
      (∀ a, a < x.toNat ∨ x.toNat + data.length ≤ a → readByte m a = readByte s.mem a)

/-- No command but a part reset changes a byte of a page whose pin count is not 0 (R28). -/
def Obligations.PinnedPagesAreNeverWritten : Prop :=
  ∀ (c : Instr) (s t : State) (a : Nat) (p : PageId),
    (∀ straps, c ≠ .hostRequestReset straps ∧ c ≠ .powerOn straps ∧ c ≠ .resetPin straps) →
    exec c s = .next t → a / 2048 = p.val → s.pins[p] ≠ 0 → readByte t.mem a = readByte s.mem a

/-- READ: body length, length field and range are checked in this order, pins are not; then the bytes at the offset and the
ascending ones, and no state changes (R29). -/
def Obligations.ReadReturnsTheBytes : Prop :=
  ∀ (s : State) (seq : Byte) (body : List Byte), performs s ⟨seq, 0x11, body⟩ →
    (body.length ≠ 6 → exec (.read seq body) s = .next (s.answered ⟨seq, 0x11, body⟩ [statusCode .badLength])) ∧
    ∀ (x : BitVec 32) (n : Word16), body = bytes32 x ++ bytes16 n →
      (n.toNat < 1 ∨ 512 < n.toNat →
        exec (.read seq body) s = .next (s.answered ⟨seq, 0x11, body⟩ [statusCode .badValue])) ∧
      (1 ≤ n.toNat → n.toNat ≤ 512 → 131072 < x.toNat + n.toNat →
        exec (.read seq body) s = .next (s.answered ⟨seq, 0x11, body⟩ [statusCode .outOfRange])) ∧
      (1 ≤ n.toNat → n.toNat ≤ 512 → x.toNat + n.toNat ≤ 131072 →
        ∃ data, exec (.read seq body) s = .next (s.answered ⟨seq, 0x11, body⟩ (statusCode .ok :: data)) ∧
          data.length = n.toNat ∧ ∀ i (h : i < data.length), data[i] = readByte s.mem (x.toNat + i))

/-- PIN_MAP is answered with the 64 counts, page 0 first, and changes no state; with a body it is refused with BAD_LENGTH
(R35). -/
def Obligations.PinMapReportsTheCounts : Prop :=
  ∀ (s : State) (seq : Byte) (body : List Byte), performs s ⟨seq, 0x12, body⟩ →
    (body = [] → ∃ counts, exec (.pinMap seq body) s =
        .next (s.answered ⟨seq, 0x12, body⟩ (statusCode .ok :: counts)) ∧ counts.length = 64 ∧
        ∀ p : PageId, counts[p.val]? = some (BitVec.ofNat 8 s.pins[p])) ∧
    (body ≠ [] → exec (.pinMap seq body) s = .next (s.answered ⟨seq, 0x12, body⟩ [statusCode .badLength]))

/-! ### Jobs: admission, freeing, status -/

/-- The seven checks of SUBMIT in their order; the first that fails gives the reply, and nothing else changes (R17, R18). -/
def Obligations.SubmitIsCheckedInOrder : Prop :=
  ∀ (s : State) (seq lane cls count : Byte) (tag : Tag) (rest body : List Byte) (r : Request), r = ⟨seq, 0x20, body⟩ →
    performs s r →
    (body.length < 5 → exec (.submit seq body) s = .next (s.answered r [statusCode .badLength])) ∧
    (body = lane :: cls :: (bytes16 tag ++ count :: rest) → rest.length ≠ 7 * count.toNat →
      exec (.submit seq body) s = .next (s.answered r [statusCode .badLength])) ∧
    (body = lane :: cls :: (bytes16 tag ++ count :: rest) → rest.length = 7 * count.toNat →
      (8 ≤ lane.toNat → exec (.submit seq body) s = .next (s.answered r [statusCode .badLane])) ∧
      (lane.toNat < 8 → (4 ≤ cls.toNat ∨ count.toNat = 0 ∨ 32 < count.toNat ∨ tag = 0) →
        exec (.submit seq body) s = .next (s.answered r [statusCode .badValue])) ∧
      (lane.toNat < 8 → cls.toNat < 4 → 1 ≤ count.toNat → count.toNat ≤ 32 → tag ≠ 0 →
        ((∃ c, (s.ctx c).state ≠ .free ∧ (s.ctx c).tag = tag) →
          exec (.submit seq body) s = .next (s.answered r [statusCode .tagInUse])) ∧
        ((∀ c, (s.ctx c).state ≠ .free → (s.ctx c).tag ≠ tag) → ∀ ds : List Descriptor,
          (∀ d ∈ ds, d.offset < 2 ^ 32 ∧ d.length < 2 ^ 16) → rest = ds.flatMap descriptorBytes →
          (∀ before d after, ds = before ++ d :: after → (∀ x ∈ before, validSegment x) → ¬ validSegment d →
            exec (.submit seq body) s =
              .next (s.answered r [statusCode .badSegment, BitVec.ofNat 8 before.length])) ∧
          ((∀ d ∈ ds, validSegment d) → (∀ c, (s.ctx c).state ≠ .free) →
            exec (.submit seq body) s = .next (s.answered r [statusCode .noContext])) ∧
          ((∀ d ∈ ds, validSegment d) → (∃ c, (s.ctx c).state = .free) → s.freeList.length < ds.length →
            exec (.submit seq body) s = .next (s.answered r [statusCode .noSegments])))))

/-- A SUBMIT that passes takes the lowest FREE context and the head of the free list, fills and links the entries, adds one
pin to each touched page, and queues the job at the tail of its lane and class; on a lane that is UP or HELD with nothing to
run, selection makes it RUNNING at once. It is answered OK with the context number. The premise IdleLaw is R42's law, which
every step keeps: a lane that is UP or HELD with an empty running slot has no other candidate (R6, R19, R32, R41, R42). -/
def Obligations.SubmitAdmitsTheJob : Prop :=
  ∀ (s : State) (seq : Byte) (lane : LaneId) (cls : ClassId) (tag : Tag) (ds : List Descriptor) (c : CtxId)
    (body : List Byte),
    body = submitBody (BitVec.ofNat 8 lane.val) (BitVec.ofNat 8 cls.val) tag (BitVec.ofNat 8 ds.length) ds →
    performs s ⟨seq, 0x20, body⟩ → 1 ≤ ds.length → ds.length ≤ 32 → tag ≠ 0 →
    (∀ d, (s.ctx d).state ≠ .free → (s.ctx d).tag ≠ tag) → (∀ d ∈ ds, validSegment d) →
    (s.ctx c).state = .free → (∀ d, d < c → (s.ctx d).state ≠ .free) → ds.length ≤ s.freeList.length → s.freeList.Nodup →
    IdleLaw s →
    let job : Context := { state := .queued, tag := tag, lane := lane, cls := cls, segCount := ds.length,
                           segs := s.freeList.take ds.length }
    let x := s.lane lane
    ∃ t : State, exec (.submit seq body) s = .next (t.answered ⟨seq, 0x20, body⟩ [statusCode .ok, BitVec.ofNat 8 c.val]) ∧
      (∀ d, d ≠ c → t.ctx d = s.ctx d) ∧ t.freeList = s.freeList.drop ds.length ∧
      (∀ i (h : i < ds.length) (h' : i < s.freeList.length), t.pool[s.freeList[i]] =
        { offset := ds[i].offset, length := ds[i].length, notifyFlag := ds[i].flags.getLsbD 0,
          bindFlag := ds[i].flags.getLsbD 1, link := if i + 1 < ds.length then s.freeList[i + 1]? else none }) ∧
      (∀ e, e ∉ s.freeList.take ds.length → t.pool[e] = s.pool[e]) ∧
      (∀ p : PageId, ((∃ d ∈ ds, touchesPage d.offset d.length p.val) → t.pins[p] = s.pins[p] + 1) ∧
        ((∀ d ∈ ds, ¬ touchesPage d.offset d.length p.val) → t.pins[p] = s.pins[p])) ∧
      (∀ l, l ≠ lane → t.lane l = s.lane l) ∧ t.mem = s.mem ∧ t.notices = s.notices ∧ t.host = s.host ∧
      t.heldInReset = s.heldInReset ∧ t.powerOnDue = s.powerOnDue ∧ t.pending = s.pending ∧
      ((selects x.ctl.state = false ∨ x.sched.running ≠ none) → t.ctx c = job ∧
        t.lane lane = { x with sched := { x.sched with ready := x.sched.ready.set cls (x.sched.ready[cls] ++ [c]) } }) ∧
      (selects x.ctl.state = true → x.sched.running = none → t.ctx c = { job with state := .running } ∧
        t.lane lane = { x with sched := { x.sched with running := some c } })

/-- Freeing a context: its entries, cleared, to the tail of the free list in segment order; one pin less on each page it
touches; JOB_END with its tag, lane, the reason and its acked position; the record cleared. Nothing else changes (R7, R22,
R33). -/
def Obligations.FreeingReturnsEverything : Prop :=
  ∀ (s : State) (c : CtxId) (reason : EndReason),
    let x := s.ctx c
    let t := s.freeCtx c reason
    t.freeList = s.freeList ++ x.segs ∧ (∀ e ∈ x.segs, t.pool[e] = {}) ∧ (∀ e, e ∉ x.segs → t.pool[e] = s.pool[e]) ∧
    (∀ p : PageId, ((∃ g ∈ s.jobSegments c, touchesPage g.offset g.length p.val) → t.pins[p] = s.pins[p] - 1) ∧
      ((∀ g ∈ s.jobSegments c, ¬ touchesPage g.offset g.length p.val) → t.pins[p] = s.pins[p])) ∧
    t.notices = postTo s.notices (.jobEnd x.tag x.lane reason x.acked) ∧ t.ctx c = {} ∧
    (∀ d, d ≠ c → t.ctx d = s.ctx d) ∧ t.mem = s.mem ∧ t.lanes = s.lanes ∧ t.host = s.host ∧
    t.heldInReset = s.heldInReset ∧ t.powerOnDue = s.powerOnDue ∧ t.pending = s.pending

/-- The requests that carry one field. SUSPEND, RESUME, ABORT and JOB_STATUS: a body that is not one tag is refused with
BAD_LENGTH, a tag that no non-FREE context holds (tag 0 among them) with NO_SUCH_JOB. LANE_OPEN, LANE_RESET, LANE_STATUS and
FETCH: a body that is not one lane number is refused with BAD_LENGTH, a lane above 7 with BAD_LANE. Nothing else changes
(R10, R24, R62, R90, R101, R103, R151, R171). -/
def Obligations.OneFieldRequestsAreChecked : Prop :=
  ∀ (s : State) (c : Instr) (seq : Byte) (body : List Byte) (kind : Byte), performs s ⟨seq, kind, body⟩ →
    ((c, kind) ∈ [(Instr.suspend seq body, (0x21 : Byte)), (.resume seq body, 0x22), (.abort seq body, 0x23),
        (.jobStatus seq body, 0x24)] →
      (body.length ≠ 2 → exec c s = .next (s.answered ⟨seq, kind, body⟩ [statusCode .badLength])) ∧
      ∀ tag : Tag, body = bytes16 tag → (tag = 0 ∨ ∀ d, (s.ctx d).state ≠ .free → (s.ctx d).tag ≠ tag) →
        exec c s = .next (s.answered ⟨seq, kind, body⟩ [statusCode .noSuchJob])) ∧
    ((c, kind) ∈ [(Instr.laneOpen seq body, (0x31 : Byte)), (.laneReset seq body, 0x32), (.laneStatus seq body, 0x33),
        (.fetch seq body, 0x40)] →
      (body.length ≠ 1 → exec c s = .next (s.answered ⟨seq, kind, body⟩ [statusCode .badLength])) ∧
      ∀ lane : Byte, body = [lane] → 8 ≤ lane.toNat →
        exec c s = .next (s.answered ⟨seq, kind, body⟩ [statusCode .badLane]))

/-- JOB_STATUS reports the record of the job that holds the tag, field by field, and changes no state (R24, R183). -/
def Obligations.JobStatusReportsTheRecord : Prop :=
  ∀ (s : State) (seq : Byte) (tag : Tag) (c : CtxId), performs s ⟨seq, 0x24, bytes16 tag⟩ → holdsTag s tag c →
    let x := s.ctx c
    let linkTag : Tag := match x.link with
      | none => 0
      | some d => (s.ctx d).tag
    exec (.jobStatus seq (bytes16 tag)) s = .next (s.answered ⟨seq, 0x24, bytes16 tag⟩
      ([0, BitVec.ofNat 8 c.val, jobStateCode x.state, BitVec.ofNat 8 x.lane.val, BitVec.ofNat 8 x.cls.val,
        BitVec.ofNat 8 x.segCount, BitVec.ofNat 8 x.sent, BitVec.ofNat 8 x.acked,
        (if x.suspendPending then 1 else 0) + (if x.started then 2 else 0),
        linkTag.setWidth 8, (linkTag >>> 8).setWidth 8]))

/-! ### SUSPEND, RESUME, ABORT -/

/-- SUSPEND by the state of the job: a QUEUED job leaves its queue and becomes SUSPENDED (OK); a PREEMPTED job is spliced
out and becomes SUSPENDED (OK); a RUNNING job has its suspend pending flag set (PENDING); in the other states WRONG_STATE.
No notice, and nothing else changes (R63 to R66). -/
def Obligations.SuspendActsByTheJobsState : Prop :=
  ∀ (s : State) (seq : Byte) (tag : Tag) (c : CtxId), performs s ⟨seq, 0x21, bytes16 tag⟩ → holdsTag s tag c →
    let x := s.ctx c
    let r : Request := ⟨seq, 0x21, bytes16 tag⟩
    (x.state = .queued → exec (.suspend seq (bytes16 tag)) s = .next (State.answered
      (((s.modSched x.lane fun d => { d with ready := d.ready.set x.cls (d.ready[x.cls].filter (· ≠ c)) }).modCtx c
        fun y => { y with state := .suspended })) r [statusCode .ok])) ∧
    (x.state = .preempted → exec (.suspend seq (bytes16 tag)) s = .next (State.answered
      ((s.splice x.lane c).modCtx c fun y => { y with state := .suspended }) r [statusCode .ok])) ∧
    (x.state = .running → exec (.suspend seq (bytes16 tag)) s = .next (State.answered
      (s.modCtx c fun y => { y with suspendPending := true }) r [statusCode .pending])) ∧
    ((x.state = .suspended ∨ x.state = .draining ∨ x.state = .aborting) →
      exec (.suspend seq (bytes16 tag)) s = .next (s.answered r [statusCode .wrongState]))

/-- RESUME by the state of the job: a SUSPENDED job joins the tail of its queue, and on a lane that is UP or HELD with
nothing to run it is RUNNING at once; a RUNNING job's pending suspension is withdrawn; otherwise WRONG_STATE (R70, R71). -/
def Obligations.ResumeActsByTheJobsState : Prop :=
  ∀ (s : State) (seq : Byte) (tag : Tag) (c : CtxId), performs s ⟨seq, 0x22, bytes16 tag⟩ → holdsTag s tag c →
    let x := s.ctx c
    let d := (s.lane x.lane).sched
    let r : Request := ⟨seq, 0x22, bytes16 tag⟩
    let run := fun t : State => exec (.resume seq (bytes16 tag)) s = .next (State.answered t r [statusCode .ok])
    (x.state = .suspended → (selects (s.lane x.lane).ctl.state = false ∨ d.running ≠ none) →
      run ((s.modSched x.lane fun d => { d with ready := d.ready.set x.cls (d.ready[x.cls] ++ [c]) }).modCtx c
        fun y => { y with state := .queued })) ∧
    (x.state = .suspended → selects (s.lane x.lane).ctl.state = true → d.running = none → d.resume = none →
      (∀ k : ClassId, d.ready[k] = []) →
      run ((s.modSched x.lane fun d => { d with running := some c }).modCtx c
        fun y => { y with state := .running, link := none })) ∧
    (x.state = .running → x.suspendPending = true → run (s.modCtx c fun y => { y with suspendPending := false })) ∧
    ((x.state = .running ∧ x.suspendPending = false) ∨ x.state = .queued ∨ x.state = .preempted ∨ x.state = .draining ∨
        x.state = .aborting →
      exec (.resume seq (bytes16 tag)) s = .next (s.answered r [statusCode .wrongState]))

/-- ABORT of a job that has not started: it is withdrawn and freed at once with reason ABORTED, selection follows when it
ran, and the reply carries FREE; no CANCEL is created (R73). -/
def Obligations.AbortFreesAnUnstartedJob : Prop :=
  ∀ (s : State) (seq : Byte) (tag : Tag) (c : CtxId), performs s ⟨seq, 0x23, bytes16 tag⟩ → holdsTag s tag c →
    (s.ctx c).started = false →
    let x := s.ctx c
    let run := fun t : State => exec (.abort seq (bytes16 tag)) s =
      .next (State.answered t ⟨seq, 0x23, bytes16 tag⟩ [statusCode .ok, 0])
    (x.state = .queued → run (State.freeCtx (s.modSched x.lane fun d =>
      { d with ready := d.ready.set x.cls (d.ready[x.cls].filter (· ≠ c)) }) c .aborted)) ∧
    (x.state = .running → run (State.select (State.freeCtx ((s.modSched x.lane fun d =>
      { d with running := none, resume := x.link }).modCtx c fun y => { y with link := none, suspendPending := false })
      c .aborted) x.lane)) ∧
    (x.state = .preempted → run ((s.splice x.lane c).freeCtx c .aborted)) ∧
    (x.state = .suspended → run (s.freeCtx c .aborted))

/-- ABORT of a started job: it is withdrawn and becomes ABORTING, its other fields kept, a CANCEL naming it joins the tail
of its lane's cancel list, selection follows when it ran, and the reply carries ABORTING; ABORT of an ABORTING job is
refused (R72, R74, R75). -/
def Obligations.AbortCancelsAStartedJob : Prop :=
  ∀ (s : State) (seq : Byte) (tag : Tag) (c : CtxId), performs s ⟨seq, 0x23, bytes16 tag⟩ → holdsTag s tag c →
    let x := s.ctx c
    let cancelled := fun t : State => (t.modCtx c fun y => { y with state := .aborting }).modTx x.lane
      fun t => { t with cancels := t.cancels ++ [⟨c, tag⟩] }
    let run := fun t : State => exec (.abort seq (bytes16 tag)) s =
      .next (State.answered t ⟨seq, 0x23, bytes16 tag⟩ [statusCode .ok, 6])
    (x.started = true → x.state = .queued → run (cancelled (s.modSched x.lane fun d =>
      { d with ready := d.ready.set x.cls (d.ready[x.cls].filter (· ≠ c)) }))) ∧
    (x.started = true → x.state = .running → run (State.select (cancelled ((s.modSched x.lane fun d =>
      { d with running := none, resume := x.link }).modCtx c fun y => { y with link := none, suspendPending := false }))
      x.lane)) ∧
    (x.started = true → x.state = .preempted → run (cancelled (s.splice x.lane c))) ∧
    (x.started = true → x.state = .suspended ∨ x.state = .draining → run (cancelled s)) ∧
    (x.state = .aborting → exec (.abort seq (bytes16 tag)) s =
      .next (s.answered ⟨seq, 0x23, bytes16 tag⟩ [statusCode .wrongState]))

/-! ### The Lane Scheduler -/

/-- Selection: the best ready head takes the slot, its link set to the resume point, when there is no resume point or the
head has strictly higher priority; otherwise the job at the resume point takes it and keeps its link; none in DOWN, SYNCING
and FAULT, with a running job, or without a candidate (R42, R43, R44). -/
def Obligations.SelectionComparesTheCandidates : Prop :=
  ∀ (s : State) (l : LaneId),
    let d := (s.lane l).sched
    (selects (s.lane l).ctl.state = true → d.running = none → ∀ k c q, bestHead d.ready k c q →
      (∀ r, d.resume = some r → (s.ctx c).cls < (s.ctx r).cls) →
      s.select l = (s.modSched l fun d => { d with ready := d.ready.set k q, running := some c, resume := none }).modCtx c
        fun x => { x with state := .running, link := d.resume }) ∧
    (selects (s.lane l).ctl.state = true → d.running = none → ∀ r, d.resume = some r →
      ((∀ k : ClassId, d.ready[k] = []) ∨ ∃ k c q, bestHead d.ready k c q ∧ ¬ (s.ctx c).cls < (s.ctx r).cls) →
      s.select l = (s.modSched l fun d => { d with running := some r, resume := none }).modCtx r
        fun x => { x with state := .running }) ∧
    ((selects (s.lane l).ctl.state = false ∨ d.running ≠ none ∨ (d.resume = none ∧ ∀ k : ClassId, d.ready[k] = [])) →
      s.select l = s)

/-- The boundary before the running job's next segment: bound by the BIND flag of the segment before, it changes nothing;
unbound, a pending suspension takes effect with JOB_SUSPENDED and selection follows, else a strictly higher-priority ready
head preempts the job, which heads the chain, else nothing changes (R46 to R51). -/
def Obligations.BoundaryIsEvaluatedInOrder : Prop :=
  ∀ (s : State) (l : LaneId) (c : CtxId), (s.lane l).sched.running = some c →
    let x := s.ctx c
    let bound := ∃ k g, x.sent = k + 1 ∧ s.segmentAt c k = some g ∧ g.bindFlag = true
    (bound → s.evalBoundary l = s) ∧
    (¬ bound → x.suspendPending = true →
      s.evalBoundary l = State.select ((((s.modSched l fun d => { d with running := none, resume := x.link }).modCtx c
        fun y => { y with state := .suspended, link := none, suspendPending := false })).post
          (.jobSuspended x.tag x.lane x.sent)) l) ∧
    (¬ bound → x.suspendPending = false → ∀ k h q, bestHead (s.lane l).sched.ready k h q →
      ((s.ctx h).cls < x.cls → s.evalBoundary l =
        ((s.modSched l fun d => { d with ready := d.ready.set k q, running := some h }).modCtx c
          fun y => { y with state := .preempted }).modCtx h fun y => { y with state := .running, link := some c }) ∧
      (¬ (s.ctx h).cls < x.cls → s.evalBoundary l = s)) ∧
    (¬ bound → x.suspendPending = false → (∀ k : ClassId, (s.lane l).sched.ready[k] = []) → s.evalBoundary l = s)

/-- The splice takes a PREEMPTED job out of its lane's chain and keeps the order of the rest: what named the job, a context's
link or the resume point, names the job's former link, the job's own link becomes none, and every other link and all other
state stay (R55). -/
def Obligations.SpliceClosesTheChain : Prop :=
  ∀ (s : State) (c : CtxId), ScheduleLaw s → (s.ctx c).state = .preempted →
    let l := (s.ctx c).lane
    let t := s.splice l c
    chainOf t l = (chainOf s l).erase c ∧ (t.ctx c).link = none ∧ (∀ k, k ≠ l → t.lane k = s.lane k) ∧
    (∀ d, d ≠ c → (s.ctx d).link = some c → t.ctx d = { s.ctx d with link := (s.ctx c).link }) ∧
    (∀ d, d ≠ c → (s.ctx d).link ≠ some c → t.ctx d = s.ctx d) ∧ t.ctx c = { s.ctx c with link := none } ∧
    t.lane l = { s.lane l with sched := { (s.lane l).sched with
      resume := if (s.lane l).sched.resume = some c then (s.ctx c).link else (s.lane l).sched.resume } } ∧
    t = { s with ctxs := t.ctxs, lanes := t.lanes }

/-! ### Lane requests and returns -/

/-- LANE_CONFIG: body length, lane, ranges and lane state are checked in this order; in DOWN and FAULT all five settings are
replaced at once, and nothing else changes (R88). -/
def Obligations.LaneConfigReplacesAllSettings : Prop :=
  ∀ (s : State) (seq : Byte) (body : List Byte) (r : Request), r = ⟨seq, 0x30, body⟩ → performs s r →
    (body.length ≠ 7 → exec (.laneConfig seq body) s = .next (s.answered r [statusCode .badLength])) ∧
    ∀ (lane timeout retries hold policy : Byte) (payload : Word16),
      body = [lane, timeout, retries, hold] ++ bytes16 payload ++ [policy] →
      let inRange := 1 ≤ timeout.toNat ∧ 1 ≤ retries.toNat ∧ retries.toNat ≤ 7 ∧ hold.toNat ≤ 60 ∧
        (payload.toNat = 64 ∨ payload.toNat = 128 ∨ payload.toNat = 256 ∨ payload.toNat = 512) ∧ policy.toNat ≤ 2
      (8 ≤ lane.toNat → exec (.laneConfig seq body) s = .next (s.answered r [statusCode .badLane])) ∧
      ∀ l : LaneId, lane.toNat = l.val →
        (¬ inRange → exec (.laneConfig seq body) s = .next (s.answered r [statusCode .badValue])) ∧
        (inRange → ((s.lane l).ctl.state = .syncing ∨ (s.lane l).ctl.state = .up ∨ (s.lane l).ctl.state = .held) →
          exec (.laneConfig seq body) s = .next (s.answered r [statusCode .wrongState])) ∧
        (inRange → ((s.lane l).ctl.state = .down ∨ (s.lane l).ctl.state = .fault) → ∀ p : NotifyPolicy,
          policyCode p = policy → exec (.laneConfig seq body) s = .next (State.answered (s.modCtl l fun c => { c with
            config := ⟨timeout.toNat, retries.toNat, hold.toNat, payload.toNat, p⟩ }) r [statusCode .ok]))

/-- LANE_OPEN: from DOWN or FAULT the lane becomes SYNCING with one PROBE formed, the probe timer running and LANE_STATE
posted, and nothing else of the part changes; in the other states WRONG_STATE (R90). -/
def Obligations.LaneOpenBeginsSynchronisation : Prop :=
  ∀ (s : State) (seq lane : Byte) (l : LaneId), lane.toNat = l.val → performs s ⟨seq, 0x31, [lane]⟩ →
    let st := (s.lane l).ctl.state
    (st = .down ∨ st = .fault → exec (.laneOpen seq [lane]) s = .next (State.answered ((s.modLane l fun x => { x with
      ctl := { x.ctl with state := .syncing, probeCount := 1, probeTimer := some 10 }
      pair := { x.pair with probes := x.pair.probes + 1 } }).post (.laneState l .syncing .opened))
      ⟨seq, 0x31, [lane]⟩ [statusCode .ok])) ∧
    (st = .syncing ∨ st = .up ∨ st = .held →
      exec (.laneOpen seq [lane]) s = .next (s.answered ⟨seq, 0x31, [lane]⟩ [statusCode .wrongState]))

/-- LANE_RESET, in every lane state: the lane is DOWN with an empty scheduler, transmitter and pair, its configuration,
last fault cause and returns kept; its jobs are freed in ascending context number, their pool entries cleared, their
JOB_ENDs before the LANE_STATE; the other lanes, their jobs and every other pool entry stay (R7, R101). -/
def Obligations.LaneResetEndsTheLanesJobs : Prop :=
  ∀ (s : State) (seq lane : Byte) (l : LaneId), lane.toNat = l.val → performs s ⟨seq, 0x32, [lane]⟩ → ScheduleLaw s →
    StoreLaw s →
    let x := s.lane l
    let gone := allCtxs.filter fun c => (s.ctx c).state != .free && (s.ctx c).lane == l
    ∃ t : State, exec (.laneReset seq [lane]) s = .next (t.answered ⟨seq, 0x32, [lane]⟩ [statusCode .ok]) ∧
      t.lane l = Lane.mk ⟨Vector.replicate 4 [], none, none⟩ ⟨[], 0, [], none, 0, none, 0⟩
        { x.ctl with state := .down, window := 0, stationId := 0, probeCount := 0, probeTimer := none, holdTimer := none }
        ⟨none, []⟩ ⟨none, [], 0, []⟩ x.returns ∧
      (∀ k, k ≠ l → t.lane k = s.lane k) ∧ (∀ c, c ∈ gone → t.ctx c = {}) ∧ (∀ c, c ∉ gone → t.ctx c = s.ctx c) ∧
      t.freeList = s.freeList ++ gone.flatMap (fun c => (s.ctx c).segs) ∧
      (∀ e, e ∈ gone.flatMap (fun c => (s.ctx c).segs) → t.pool[e] = {}) ∧
      (∀ e, e ∉ gone.flatMap (fun c => (s.ctx c).segs) → t.pool[e] = s.pool[e]) ∧
      (∀ p : PageId, t.pins[p] = s.pins[p] - (gone.filter fun c => touches (s.jobSegments c) p.val).length) ∧
      t.notices = postTo ((gone.map fun c => NoticeBody.jobEnd (s.ctx c).tag l
        (if (s.ctx c).state = .aborting then .aborted else .laneReset) (s.ctx c).acked).foldl postTo s.notices)
        (.laneState l .down .laneReset) ∧
      t.mem = s.mem ∧ t.host = s.host ∧ t.heldInReset = s.heldInReset ∧ t.powerOnDue = s.powerOnDue ∧
      t.pending = s.pending

/-- LANE_STATUS reports the lane's fields byte for byte, in every lane state, and changes no state (R103, R183). -/
def Obligations.LaneStatusReportsTheLane : Prop :=
  ∀ (s : State) (seq lane : Byte) (l : LaneId), lane.toNat = l.val → performs s ⟨seq, 0x33, [lane]⟩ →
    let x := s.lane l
    let tagOf : Option CtxId → Tag := fun o => match o with
      | none => 0
      | some c => (s.ctx c).tag
    let low := fun w : Word16 => w.setWidth 8
    let high := fun w : Word16 => (w >>> 8).setWidth 8
    exec (.laneStatus seq [lane]) s = .next (s.answered ⟨seq, 0x33, [lane]⟩
      [0, laneStateCode x.ctl.state, faultCauseCode x.ctl.lastFault, BitVec.ofNat 8 x.ctl.config.ackTimeout,
        BitVec.ofNat 8 x.ctl.config.retryLimit, BitVec.ofNat 8 x.ctl.config.holdLimit,
        low (BitVec.ofNat 16 x.ctl.config.payloadSize), high (BitVec.ofNat 16 x.ctl.config.payloadSize),
        policyCode x.ctl.config.policy, BitVec.ofNat 8 x.ctl.window, low x.ctl.stationId, high x.ctl.stationId,
        BitVec.ofNat 8 x.tx.inFlight.length, x.tx.nextSeq.setWidth 8, BitVec.ofNat 8 x.tx.retry,
        low (BitVec.ofNat 16 x.tx.retxTotal), high (BitVec.ofNat 16 x.tx.retxTotal), low (tagOf x.sched.running),
        high (tagOf x.sched.running), low (tagOf x.sched.resume), high (tagOf x.sched.resume),
        BitVec.ofNat 8 x.sched.ready[0].length, BitVec.ofNat 8 x.sched.ready[1].length,
        BitVec.ofNat 8 x.sched.ready[2].length, BitVec.ofNat 8 x.sched.ready[3].length,
        BitVec.ofNat 8 x.tx.cancels.length, BitVec.ofNat 8 x.returns.length])

/-- FETCH, in every lane state: the oldest return leaves its list and is reported with the number remaining; an empty list
is answered EMPTY; nothing else changes (R151). -/
def Obligations.FetchTakesTheOldestReturn : Prop :=
  ∀ (s : State) (seq lane : Byte) (l : LaneId), lane.toNat = l.val → performs s ⟨seq, 0x40, [lane]⟩ →
    ((s.lane l).returns = [] →
      exec (.fetch seq [lane]) s = .next (s.answered ⟨seq, 0x40, [lane]⟩ [statusCode .empty])) ∧
    ∀ e rest, (s.lane l).returns = e :: rest →
      exec (.fetch seq [lane]) s = .next (State.answered (s.modLane l fun x => { x with returns := rest })
        ⟨seq, 0x40, [lane]⟩ ([0, e.tag.setWidth 8, (e.tag >>> 8).setWidth 8, e.code, BitVec.ofNat 8 e.body.length] ++
          e.body ++ [BitVec.ofNat 8 rest.length]))

/-- A REPLY in UP or HELD: with the last accepted bit it is a duplicate, answered RACK; with a full list it is refused with
RNAK; otherwise it is appended, its bit recorded, answered RACK, and RETURN_READY posted when the list was empty. The bit is
the lowest of its byte (R147, R148, R149, R185). -/
def Obligations.ReplyIsAcceptedOnce : Prop :=
  ∀ (s u : State) (l : LaneId) (b code : Byte) (tag : Tag) (body : List Byte), body.length ≤ 64 →
    handsOn s l (replyBytes b tag code body) u → ((u.lane l).ctl.state = .up ∨ (u.lane l).ctl.state = .held) →
    let x := u.lane l
    let bit := b.getLsbD 0
    (x.rcv.lastBit = some bit → exec (.reply l b tag code body) s = .next (u.modPair l fun p =>
      { p with answers := p.answers ++ [.rack bit] })) ∧
    (x.rcv.lastBit ≠ some bit → 32 ≤ x.returns.length → exec (.reply l b tag code body) s = .next (u.modPair l fun p =>
      { p with answers := p.answers ++ [.rnak bit] })) ∧
    (x.rcv.lastBit ≠ some bit → x.returns.length < 32 →
      let v := u.modLane l fun x => { x with
        returns := x.returns ++ [⟨tag, code, body⟩]
        rcv := { x.rcv with lastBit := some bit }
        pair := { x.pair with answers := x.pair.answers ++ [.rack bit] } }
      exec (.reply l b tag code body) s = .next (if x.returns = [] then v.post (.returnReady l) else v))

/-! ### The station link -/

/-- A station frame is found behind bytes that hold no marker and is kept whole, with the bytes behind it, for its owner; a
hunting receiver hands any frame on, and one that keeps a frame hands it on and reads the bytes behind it (R83, R185; that
the frame waits for its own command is the model's choice: log 6). -/
def Obligations.StationFrameIsReadBack : Prop :=
  ∀ (frame noise more : List Byte), isStationFrame frame → Config.marker ∉ noise →
    huntLane ((noise ++ frame ++ more).length + 1) (noise ++ frame ++ more) = frame ++ more ∧
    ∀ (s : State) (l : LaneId),
      ((s.lane l).rcv.rx = [] → s.handOn l frame = some s) ∧
      ((s.lane l).rcv.rx = frame ++ more →
        s.handOn l frame = some (s.modRcv l fun r => { r with rx := huntLane (more.length + 1) more }))

/-- Bytes on a receive pair change the receiver's own bytes and nothing else, whether they come in pieces or together (that a
well-formed frame among them waits for its own command is the model's choice: log 6); a hunting receiver passes over bytes
without a marker, and discards a frame of unknown type, of an oversized REPLY body, or of any of the six types with a bad CRC,
when it holds no marker behind its own (R83). -/
def Obligations.DamagedStationFramesAreDiscarded : Prop :=
  ∀ (s : State) (l : LaneId), s.heldInReset = false →
    (∀ bytes, ∃ rx, exec (.laneFrameDiscard l bytes) s = .next (s.modRcv l fun r => { r with rx := rx })) ∧
    (∀ a b, ∃ t u, exec (.laneFrameDiscard l a) s = .next t ∧ exec (.laneFrameDiscard l b) t = .next u ∧
      exec (.laneFrameDiscard l (a ++ b)) s = .next u) ∧
    ((s.lane l).rcv.rx = [] →
      (∀ bytes, Config.marker ∉ bytes → exec (.laneFrameDiscard l bytes) s = .next s) ∧
      ∀ (type : Byte) (more : List Byte), Config.marker ∉ type :: more →
        (type ∉ [0x11, 0x12, 0x13, 0x14, 0x15, 0x16] ∨
          (∃ b t0 t1 code len rest, type = 0x16 ∧ more = b :: t0 :: t1 :: code :: len :: rest ∧ 64 < len.toNat) ∨
          (∃ n, (type, n) ∈ [((0x11 : Byte), 3), (0x12, 1), (0x13, 1), (0x14, 0), (0x15, 0)] ∧ more.length = n + 2 ∧
            crcBytes (type :: more.take n) ≠ more.drop n) ∨
          (∃ b t0 t1 code len rest, type = 0x16 ∧ more = b :: t0 :: t1 :: code :: len :: rest ∧ len.toNat ≤ 64 ∧
            rest.length = len.toNat + 2 ∧
            crcBytes (type :: b :: t0 :: t1 :: code :: len :: rest.take len.toNat) ≠ rest.drop len.toNat)) →
        exec (.laneFrameDiscard l (Config.marker :: type :: more)) s = .next s)

/-- The station frames that are ignored: HELLO with a window of 0 or above 8 in every state, HELLO in DOWN and FAULT, HOLD
outside UP, READY outside HELD, ACK, NAK and REPLY outside UP and HELD, and an ACK or NAK that names no entry in flight
(R84, R93, R118, R119). -/
def Obligations.IgnoredStationFramesChangeNothing : Prop :=
  ∀ (s u : State) (l : LaneId),
    let st := (u.lane l).ctl.state
    let quiet := st = .down ∨ st = .syncing ∨ st = .fault
    (∀ w id, handsOn s l (helloBytes w id) u → (w.toNat = 0 ∨ 8 < w.toNat ∨ st = .down ∨ st = .fault) →
      exec (.hello l w id) s = .next u) ∧
    (handsOn s l holdBytes u → st ≠ .up → exec (.hold l) s = .next u) ∧
    (handsOn s l readyBytes u → st ≠ .held → exec (.ready l) s = .next u) ∧
    (∀ n, handsOn s l (ackBytes n) u → (quiet ∨ ∀ e ∈ (u.lane l).tx.inFlight, e.seq.toNat ≠ n.toNat) →
      exec (.ack l n) s = .next u) ∧
    (∀ n, handsOn s l (nakBytes n) u → (quiet ∨ ∀ e ∈ (u.lane l).tx.inFlight, e.seq.toNat ≠ n.toNat) →
      exec (.nak l n) s = .next u) ∧
    (∀ b tag code body, body.length ≤ 64 → handsOn s l (replyBytes b tag code body) u → quiet →
      exec (.reply l b tag code body) s = .next u)

/-- HELLO with window 1 to 8 in SYNCING: the lane is UP with the window and station id recorded, the probe timer stopped, a
waiting PROBE withdrawn, the next sequence number 0 and the reply bit none; LANE_STATE is posted, and then the running job
reaches the UP-entry boundary, or selection is performed (R47, R92). -/
def Obligations.HelloCompletesSynchronisation : Prop :=
  ∀ (s u : State) (l : LaneId) (w : Byte) (id : Word16), handsOn s l (helloBytes w id) u →
    (u.lane l).ctl.state = .syncing → 1 ≤ w.toNat → w.toNat ≤ 8 →
    let v := (u.modLane l fun x => { x with
      ctl := { x.ctl with state := .up, window := w.toNat, stationId := id, probeTimer := none }
      pair := { x.pair with probes := 0 }
      tx := { x.tx with nextSeq := 0 }
      rcv := { x.rcv with lastBit := none } }).post (.laneState l .up .hello)
    ((u.lane l).sched.running ≠ none → exec (.hello l w id) s = .next (v.evalBoundary l)) ∧
    ((u.lane l).sched.running = none → exec (.hello l w id) s = .next (v.select l))

/-- HELLO with window 1 to 8 in UP or HELD, a station restart: the lane-level values; every started job of the lane freed in
ascending context number, ABORTING jobs as ABORTED, its pool entries cleared; unstarted jobs keep their records, places and
order, and so does every link that names no freed job; the resume point heads the chain when no job runs and is none beside a
surviving running job; JOB_ENDs before the LANE_STATE; then selection (R137, R138, R139). -/
def Obligations.StationRestartEndsStartedJobs : Prop :=
  ∀ (s u : State) (l : LaneId) (w : Byte) (id : Word16), handsOn s l (helloBytes w id) u →
    ((u.lane l).ctl.state = .up ∨ (u.lane l).ctl.state = .held) → 1 ≤ w.toNat → w.toNat ≤ 8 → ScheduleLaw u → StoreLaw u →
    let x := u.lane l
    let goes := fun c : CtxId => (u.ctx c).state != .free && (u.ctx c).lane == l && (u.ctx c).started
    let gone := allCtxs.filter goes
    ∃ v : State, exec (.hello l w id) s = .next (v.select l) ∧
      v.lane l = { x with
        ctl := { x.ctl with state := .up, window := w.toNat, stationId := id, holdTimer := none }
        pair := { x.pair with answers := [], frames := [] }
        tx := ⟨[], 0, [], none, 0, none, x.tx.retxTotal⟩
        rcv := { x.rcv with lastBit := none }
        sched := (v.lane l).sched } ∧
      (∀ k : ClassId, (v.lane l).sched.ready[k] = x.sched.ready[k].filter fun c => !goes c) ∧
      (v.lane l).sched.running = x.sched.running.filter (fun c => !goes c) ∧
      chainOf v l = (chainOf u l).filter (fun c => !goes c) ∧
      (v.lane l).sched.resume = (if (v.lane l).sched.running = none then (chainOf v l).head? else none) ∧
      (∀ k, k ≠ l → v.lane k = u.lane k) ∧ (∀ c, c ∈ gone → v.ctx c = {}) ∧
      (∀ c, c ∉ gone → v.ctx c = { u.ctx c with link := (v.ctx c).link }) ∧
      (∀ c, c ∉ gone → (∀ d, d ∈ gone → (u.ctx c).link ≠ some d) → v.ctx c = u.ctx c) ∧
      v.freeList = u.freeList ++ gone.flatMap (fun c => (u.ctx c).segs) ∧
      (∀ e, e ∈ gone.flatMap (fun c => (u.ctx c).segs) → v.pool[e] = {}) ∧
      (∀ e, e ∉ gone.flatMap (fun c => (u.ctx c).segs) → v.pool[e] = u.pool[e]) ∧
      (∀ p : PageId, v.pins[p] = u.pins[p] - (gone.filter fun c => touches (u.jobSegments c) p.val).length) ∧
      v.notices = postTo ((gone.map fun c => NoticeBody.jobEnd (u.ctx c).tag l
        (if (u.ctx c).state = .aborting then .aborted else .stationRestart) (u.ctx c).acked).foldl postTo u.notices)
        (.laneState l .up .stationRestart) ∧
      v.mem = u.mem ∧ v.host = u.host ∧ v.heldInReset = u.heldInReset ∧ v.powerOnDue = u.powerOnDue ∧
      v.pending = u.pending

/-- HOLD in UP: the ack timer is stopped, the hold timer started with a nonzero hold limit, the lane HELD and LANE_STATE
posted. READY in HELD: the hold timer is stopped, the lane UP and LANE_STATE posted; with frames in flight the ack timer is
started in full, and a deferred retransmission is performed from its point on, which becomes none. Nothing else changes
(R95, R97, R121). -/
def Obligations.HoldAndReadyStopAndReleaseTheLane : Prop :=
  ∀ (s u : State) (l : LaneId),
    let x := u.lane l
    (handsOn s l holdBytes u → x.ctl.state = .up → exec (.hold l) s = .next ((u.modLane l fun x => { x with
      tx := { x.tx with ackTimer := none }
      ctl := { x.ctl with
        state := .held
        holdTimer := (if x.ctl.config.holdLimit = 0 then none else some x.ctl.config.holdLimit) } }).post
      (.laneState l .held .hold))) ∧
    (handsOn s l readyBytes u → x.ctl.state = .held →
      let v := (u.modCtl l fun c => { c with state := .up, holdTimer := none }).post (.laneState l .up .ready)
      let timed := v.modTx l fun t => { t with ackTimer := some x.ctl.config.ackTimeout }
      (x.tx.inFlight = [] → exec (.ready l) s = .next v) ∧
      (x.tx.inFlight ≠ [] → x.tx.deferred = none → exec (.ready l) s = .next timed) ∧
      (∀ before e after, x.tx.inFlight = before ++ e :: after → (∀ y ∈ before, y.seq ≠ e.seq) →
        x.tx.deferred = some e.seq → (∀ y ∈ e :: after, formable u l y) →
        exec (.ready l) s = .next ((timed.resent l (e :: after)).modTx l fun t => { t with deferred := none })))

/-! ### Transmission and acknowledgement -/

/-- DATA_CUT: with the lane UP, room in the window and no CANCEL waiting, the running job's next frame is cut: it carries the
next sequence number, the flags of its place and the bytes of staging memory; it joins the in-flight list and waits for the
pair; the ack timer starts on an empty list. Inside a segment the cut position rises; at a segment's end the sent position
rises and the boundary is evaluated; at the job's end the job drains and selection follows. Otherwise nothing is cut (R107
to R110, R53). -/
def Obligations.DataCutSendsTheNextFrame : Prop :=
  ∀ (s : State) (l : LaneId), s.heldInReset = false →
    let x := s.lane l
    let p := x.ctl.config.payloadSize
    ((x.ctl.state ≠ .up ∨ x.ctl.window ≤ x.tx.inFlight.length ∨ x.tx.cancels ≠ [] ∨ x.sched.running = none) →
      exec (.dataCut l) s = .next s) ∧
    ∀ c g, x.ctl.state = .up → x.tx.inFlight.length < x.ctl.window → x.tx.cancels = [] → x.sched.running = some c →
      s.segmentAt c (s.ctx c).sent = some g → (s.ctx c).cut * p < g.length → g.offset + g.length ≤ 131072 →
      let j := s.ctx c
      let n := min p (g.length - j.cut * p)
      let last := j.cut * p + n = g.length
      let flags : DataFlags := ⟨decide (j.cut = 0), decide last, decide (last ∧ j.sent + 1 = j.segCount),
        decide (j.sent < j.resend)⟩
      let frame := LaneFrame.data x.tx.nextSeq j.tag j.sent j.cut flags (readBytes s.mem (g.offset + j.cut * p) n)
      let v := s.modLane l fun x => { x with
        tx := { x.tx with
          inFlight := x.tx.inFlight ++ [⟨x.tx.nextSeq, c, .data j.sent j.cut flags⟩]
          nextSeq := x.tx.nextSeq + 1
          ackTimer := (if x.tx.inFlight = [] then some x.ctl.config.ackTimeout else x.tx.ackTimer) }
        pair := { x.pair with frames := x.pair.frames ++ [⟨frame, some x.tx.nextSeq⟩] } }
      let cutLast := v.modCtx c fun j => { j with started := true, cut := 0, sent := j.sent + 1 }
      (¬ last → exec (.dataCut l) s = .next (v.modCtx c fun j => { j with started := true, cut := j.cut + 1 })) ∧
      (last → j.sent + 1 < j.segCount → exec (.dataCut l) s = .next (cutLast.evalBoundary l)) ∧
      (last → j.segCount ≤ j.sent + 1 → exec (.dataCut l) s = .next (State.select
        ((cutLast.modSched l fun d => { d with running := none, resume := j.link }).modCtx c
          fun j => { j with state := .draining, link := none, suspendPending := false }) l))

/-- CANCEL_CUT: with the lane UP, room in the window and a CANCEL waiting, the head of the cancel list is cut: it carries the
next sequence number and the tag of its context, joins the in-flight list and waits for the pair; no context changes.
Otherwise nothing is cut (R107, R111, R112, R113). -/
def Obligations.CancelCutSendsTheHeadOfTheList : Prop :=
  ∀ (s : State) (l : LaneId), s.heldInReset = false →
    let x := s.lane l
    ((x.ctl.state ≠ .up ∨ x.ctl.window ≤ x.tx.inFlight.length ∨ x.tx.cancels = []) →
      exec (.cancelCut l) s = .next s) ∧
    ∀ e rest, x.ctl.state = .up → x.tx.inFlight.length < x.ctl.window → x.tx.cancels = e :: rest →
      exec (.cancelCut l) s = .next (s.modLane l fun x => { x with
        tx := { x.tx with
          cancels := rest
          inFlight := x.tx.inFlight ++ [⟨x.tx.nextSeq, e.ctx, .cancel⟩]
          nextSeq := x.tx.nextSeq + 1
          ackTimer := (if x.tx.inFlight = [] then some x.ctl.config.ackTimeout else x.tx.ackTimer) }
        pair := { x.pair with
          frames := x.pair.frames ++ [⟨.cancel x.tx.nextSeq (s.ctx e.ctx).tag, some x.tx.nextSeq⟩] } })

/-- The pair falls free: the frame on it is complete and the next waiting frame begins. In SYNCING a PROBE; in UP the oldest
RACK or RNAK before the oldest frame of the Lane Transmitter; in HELD a RACK or RNAK alone; in DOWN and FAULT none (R82, R86,
R150; the row as the falling free of the pair is the model's choice: log 9). -/
def Obligations.PairSendsTheNextWaitingFrame : Prop :=
  ∀ (s : State) (l : LaneId), s.heldInReset = false →
    let st := (s.lane l).ctl.state
    let p := (s.lane l).pair
    let run := fun q : TxPair => exec (.laneFrameSend l) s = .next (s.modPair l fun _ => q)
    (st = .down ∨ st = .fault → run { p with sending := none }) ∧
    (st = .syncing → p.probes = 0 → run { p with sending := none }) ∧
    (st = .syncing → ∀ n, p.probes = n + 1 → run { p with sending := some [0x7E, 0x01, 0xD1, 0xF1], probes := n }) ∧
    (st = .up ∨ st = .held → ∀ a as, p.answers = a :: as →
      run { p with sending := some (laneFrameBytes a), answers := as }) ∧
    (st = .up → p.answers = [] → ∀ f fs, p.frames = f :: fs →
      run { p with sending := some (laneFrameBytes f.frame), frames := fs }) ∧
    (st = .up → p.answers = [] → p.frames = [] → run { p with sending := none }) ∧
    (st = .held → p.answers = [] → run { p with sending := none })

/-- An ACK in UP or HELD that names an entry: every entry up to it is removed and accounted for in list order; the retry
count is 0; a deferred point whose entry is removed moves to the new head; in UP the ack timer starts again or stops; the
waiting frames stay (log 10), and nothing else of any lane changes (R115, R121). -/
def Obligations.AckRemovesEntriesThroughTheNamedOne : Prop :=
  ∀ (s u : State) (l : LaneId) (n : Byte) (before after : List InFlight) (e : InFlight), handsOn s l (ackBytes n) u →
    ((u.lane l).ctl.state = .up ∨ (u.lane l).ctl.state = .held) → (u.lane l).tx.inFlight = before ++ e :: after →
    e.seq.toNat = n.toNat → (∀ y ∈ before, y.seq ≠ e.seq) →
    let x := u.lane l
    let v := (before ++ [e]).foldl (fun w y => w.account l y) u
    ∃ t : State, exec (.ack l n) s = .next t ∧
      t.ctxs = v.ctxs ∧ t.pool = v.pool ∧ t.freeList = v.freeList ∧ t.pins = v.pins ∧ t.notices = v.notices ∧
      t.lane l = { x with
        tx := { x.tx with
          inFlight := after
          retry := 0
          deferred := (match x.tx.deferred with
            | none => none
            | some d => if d ∈ (before ++ [e]).map (·.seq) then after.head?.map (·.seq) else some d)
          ackTimer := (if x.ctl.state = .held then x.tx.ackTimer
            else if after = [] then none else some x.ctl.config.ackTimeout) }
        pair := { x.pair with frames := x.pair.frames.map fun f =>
          if (∃ y ∈ before ++ [e], f.copyOf = some y.seq) then { f with copyOf := none } else f } } ∧
      (∀ k, k ≠ l → t.lane k = u.lane k) ∧ t.mem = u.mem ∧ t.host = u.host ∧ t.heldInReset = u.heldInReset ∧
      t.powerOnDue = u.powerOnDue ∧ t.pending = u.pending

/-- The accounting of one removed entry: DATA without LAST changes nothing; DATA with LAST raises the acked position of its
context, posts SEGMENT_DONE under the notify policy unless the job is ABORTING, and then frees a DRAINING job all of whose
segments are acknowledged, as COMPLETED; a CANCEL frees its context as ABORTED (R4, R54, R76, R116). -/
def Obligations.AckAccountsForEachEntry : Prop :=
  ∀ (s : State) (l : LaneId) (q : BitVec 4) (c : CtxId),
    s.account l ⟨q, c, .cancel⟩ = s.freeCtx c .aborted ∧
    ∀ (k f : Nat) (flags : DataFlags),
      let e : InFlight := ⟨q, c, .data k f flags⟩
      let x := s.ctx c
      let marked := ∃ g, s.segmentAt c k = some g ∧ g.notifyFlag = true
      let reports := x.state ≠ .aborting ∧ ((s.lane l).ctl.config.policy = .all ∨
        ((s.lane l).ctl.config.policy = .flagged ∧ marked))
      let completes := x.state = .draining ∧ x.acked + 1 = x.segCount
      let v := s.modCtx c fun x => { x with acked := x.acked + 1 }
      (flags.last = false → s.account l e = s) ∧
      (flags.last = true → reports → completes →
        s.account l e = (v.post (.segmentDone x.tag x.lane k)).freeCtx c .completed) ∧
      (flags.last = true → reports → ¬ completes → s.account l e = v.post (.segmentDone x.tag x.lane k)) ∧
      (flags.last = true → ¬ reports → completes → s.account l e = v.freeCtx c .completed) ∧
      (flags.last = true → ¬ reports → ¬ completes → s.account l e = v)

/-- A NAK that names an entry raises the retry count. Above the retry limit the lane enters FAULT with RETRY_LIMIT; else in
UP the entry and every later one are retransmitted and the ack timer starts in full, and in HELD the retransmission is
deferred to the earliest entry named (R119, R120, R122, R123). -/
def Obligations.NakRetransmitsOrDefers : Prop :=
  ∀ (s u : State) (l : LaneId) (n : Byte) (before after : List InFlight) (e : InFlight), handsOn s l (nakBytes n) u →
    (u.lane l).tx.inFlight = before ++ e :: after → e.seq.toNat = n.toNat → (∀ y ∈ before, y.seq ≠ e.seq) →
    let x := u.lane l
    ((x.ctl.state = .up ∨ x.ctl.state = .held) → x.ctl.config.retryLimit < x.tx.retry + 1 →
      exec (.nak l n) s = .next (u.enterFault l .retryLimit .retryLimit)) ∧
    (x.ctl.state = .up → x.tx.retry + 1 ≤ x.ctl.config.retryLimit → (∀ y ∈ e :: after, formable u l y) →
      exec (.nak l n) s = .next ((u.resent l (e :: after)).modTx l fun t => { t with
        retry := t.retry + 1, ackTimer := some x.ctl.config.ackTimeout })) ∧
    (x.ctl.state = .held → x.tx.retry + 1 ≤ x.ctl.config.retryLimit →
      exec (.nak l n) s = .next (u.modTx l fun t => { t with
        retry := t.retry + 1
        deferred := (match t.deferred with
          | none => some e.seq
          | some d => if d ∈ (e :: after).map (·.seq) then some e.seq else some d) }))

/-- An expiry of the ack timer, running in UP: the retry count rises, and either every entry is retransmitted from head to
tail and the timer starts in full, or above the retry limit the lane enters FAULT with RETRY_LIMIT; with the timer stopped
or outside UP there is no expiry (R113, R114, R122, R123; no expiry: log 3). -/
def Obligations.AckTimerExpiryRetransmitsAll : Prop :=
  ∀ (s : State) (l : LaneId), s.heldInReset = false →
    let x := s.lane l
    ((x.ctl.state ≠ .up ∨ x.tx.ackTimer = none) → exec (.ackTimerExpiry l) s = .next s) ∧
    (x.ctl.state = .up → x.tx.ackTimer ≠ none → x.ctl.config.retryLimit < x.tx.retry + 1 →
      exec (.ackTimerExpiry l) s = .next (s.enterFault l .retryLimit .retryLimit)) ∧
    (x.ctl.state = .up → x.tx.ackTimer ≠ none → x.tx.retry + 1 ≤ x.ctl.config.retryLimit →
      (∀ y ∈ x.tx.inFlight, formable s l y) →
      exec (.ackTimerExpiry l) s = .next ((s.resent l x.tx.inFlight).modTx l fun t => { t with
        retry := t.retry + 1, ackTimer := some x.ctl.config.ackTimeout }))

/-- An expiry of the probe timer of a SYNCING lane forms one more PROBE, and after the 16th the lane enters FAULT with
NO_STATION; an expiry of the hold timer of a HELD lane is an entry into FAULT with HOLD_LIMIT; with the timer stopped or in
another lane state there is no expiry (R91, R98; no expiry: log 3). -/
def Obligations.ProbeAndHoldTimersExpire : Prop :=
  ∀ (s : State) (l : LaneId), s.heldInReset = false →
    let x := s.lane l
    ((x.ctl.state ≠ .syncing ∨ x.ctl.probeTimer = none) → exec (.probeTimerExpiry l) s = .next s) ∧
    (x.ctl.state = .syncing → x.ctl.probeTimer ≠ none → x.ctl.probeCount < 16 →
      exec (.probeTimerExpiry l) s = .next (s.modLane l fun x => { x with
        ctl := { x.ctl with probeCount := x.ctl.probeCount + 1, probeTimer := some 10 }
        pair := { x.pair with probes := x.pair.probes + 1 } })) ∧
    (x.ctl.state = .syncing → x.ctl.probeTimer ≠ none → 16 ≤ x.ctl.probeCount →
      exec (.probeTimerExpiry l) s = .next (s.enterFault l .noStation .noStation)) ∧
    ((x.ctl.state ≠ .held ∨ x.ctl.holdTimer = none) → exec (.holdTimerExpiry l) s = .next s) ∧
    (x.ctl.state = .held → x.ctl.holdTimer ≠ none →
      exec (.holdTimerExpiry l) s = .next (s.enterFault l .holdLimit .holdLimit))

/-- Entry into FAULT: timers stopped, cause recorded, LANE_STATE posted, waiting frames withdrawn (a frame on the pair
is completed); CANCELs in flight return to the head of the cancel list and the in-flight list is empty; every job of the
lane with cut work that is not acknowledged is rolled back to its acked position, its resend limit raised; DRAINING jobs
so rolled back are QUEUED at the heads of their queues, ordered by their oldest discarded frame (a job without one,
which no run reaches, stands behind the others by the model's choice: log 15); every other place, context and lane
stays, and no job ends (R13, R99, R129 to R132). -/
def Obligations.FaultEntryRollsTheLaneBack : Prop :=
  ∀ (s : State) (l : LaneId) (why : FaultCause) (cause : LaneCause),
    let x := s.lane l
    let t := s.enterFault l why cause
    let rolls := fun c : CtxId => (s.ctx c).state ≠ .free ∧ (s.ctx c).lane = l ∧
      ((s.ctx c).acked < (s.ctx c).sent ∨ (s.ctx c).cut ≠ 0)
    t.notices = postTo s.notices (.laneState l .fault cause) ∧
    (∀ k, k ≠ l → t.lane k = s.lane k) ∧
    t.lane l = { x with
      ctl := { x.ctl with state := .fault, lastFault := why, probeTimer := none, holdTimer := none }
      pair := { x.pair with answers := [], probes := 0, frames := [] }
      tx := { x.tx with
        inFlight := []
        cancels := ((x.tx.inFlight.filter fun e => e.what == .cancel).map
          fun e => CancelEntry.mk e.ctx (s.ctx e.ctx).tag) ++ x.tx.cancels
        ackTimer := none
        retry := 0
        deferred := none }
      sched := { x.sched with ready := (t.lane l).sched.ready } } ∧
    (∀ c, ¬ rolls c → t.ctx c = s.ctx c) ∧
    (∀ c, rolls c → t.ctx c = { s.ctx c with
      state := if (s.ctx c).state = .draining then .queued else (s.ctx c).state
      resend := max (s.ctx c).resend ((s.ctx c).sent + if (s.ctx c).cut = 0 then 0 else 1)
      sent := (s.ctx c).acked
      cut := 0 }) ∧
    (∀ k : ClassId, ∃ again, (t.lane l).sched.ready[k] = again ++ x.sched.ready[k] ∧ again.Nodup ∧
      (∀ c, c ∈ again ↔ rolls c ∧ (s.ctx c).state = .draining ∧ (s.ctx c).cls = k) ∧
      again.Pairwise fun c d => oldestFrame x.tx.inFlight c ≤ oldestFrame x.tx.inFlight d) ∧
    t.pool = s.pool ∧ t.freeList = s.freeList ∧ t.pins = s.pins ∧ t.mem = s.mem ∧ t.host = s.host ∧
    t.heldInReset = s.heldInReset ∧ t.powerOnDue = s.powerOnDue ∧ t.pending = s.pending

/-! ### Notices and the outbound transmitter -/

/-- Posting: with room a notice joins the tail as unsent, takes the next number and advances it; with 64 notices held it is
not kept, takes no number, and the lost count rises and holds at 65535 (R158, R159). -/
def Obligations.PostingKeepsOrCountsTheNotice : Prop :=
  ∀ (q : NoticeQueue) (b : NoticeBody), NoticeLaw q →
    (q.items.length < 64 → postTo q b = { q with items := q.items ++ [⟨q.nextSeq, b, false⟩], nextSeq := q.nextSeq + 1 } ∧
      NoticeLaw (postTo q b)) ∧
    (q.items.length = 64 → (q.lost < 65535 → postTo q b = { q with lost := q.lost + 1 }) ∧
      (q.lost = 65535 → postTo q b = q))

/-- ACK_NOTICES: with a body that is not one byte BAD_LENGTH; naming no sent notice BAD_VALUE; else the named notice and
every one before it are removed, the sent count falls by their number, and a nonzero lost count is posted as OVERFLOW and
becomes 0. REWIND_NOTICES: with a body BAD_LENGTH; else every notice becomes unsent and nothing else changes (R161, R162,
R163). -/
def Obligations.NoticeRequestsAckAndRewind : Prop :=
  ∀ (s : State) (seq : Byte) (body : List Byte), NoticeLaw s.notices →
    let q := s.notices
    (performs s ⟨seq, 0x50, body⟩ → body.length ≠ 1 →
      exec (.ackNotices seq body) s = .next (s.answered ⟨seq, 0x50, body⟩ [statusCode .badLength])) ∧
    (∀ n, body = [n] → performs s ⟨seq, 0x50, body⟩ → (∀ x ∈ q.items, x.sent = true → x.seq ≠ n) →
      exec (.ackNotices seq body) s = .next (s.answered ⟨seq, 0x50, body⟩ [statusCode .badValue])) ∧
    (∀ n before x after, body = [n] → performs s ⟨seq, 0x50, body⟩ → q.items = before ++ x :: after → x.sent = true →
      x.seq = n →
      let kept : NoticeQueue := { q with items := after, sentCount := q.sentCount - (before.length + 1) }
      exec (.ackNotices seq body) s = .next (State.answered
        { s with notices := if q.lost = 0 then kept else
          { kept with items := after ++ [⟨q.nextSeq, .overflow q.lost, false⟩], nextSeq := q.nextSeq + 1, lost := 0 } }
        ⟨seq, 0x50, body⟩ [statusCode .ok])) ∧
    (performs s ⟨seq, 0x51, body⟩ → body ≠ [] →
      exec (.rewindNotices seq body) s = .next (s.answered ⟨seq, 0x51, body⟩ [statusCode .badLength])) ∧
    (performs s ⟨seq, 0x51, body⟩ → body = [] → exec (.rewindNotices seq body) s = .next (State.answered
      { s with notices := { q with items := q.items.map (fun x => { x with sent := false }), sentCount := 0 } }
      ⟨seq, 0x51, body⟩ [statusCode .ok]))

/-- The outbound transmitter, when free, begins the oldest pending reply; with none, the oldest unsent notice while fewer
than 8 are sent, which becomes sent; busy, it begins nothing. When a reply ends its request leaves the holding list; when a
notice ends the transmitter falls free (R160, R170, R174; the events that do not happen: log 3). -/
def Obligations.OutboundTransmitterSendsRepliesFirst : Prop :=
  ∀ (s : State), s.heldInReset = false →
    let q := s.notices
    (∀ r rest, s.host.out = .idle → s.host.replies = r :: rest → exec .replySend s = .next { s with host := { s.host with
        replies := rest, out := .reply (hostFrameBytes r.frame.seq r.frame.kind r.frame.body) r.resets } } ∧
      exec .noticeSend s = .next s) ∧
    (s.host.out ≠ .idle → exec .replySend s = .next s ∧ exec .noticeSend s = .next s) ∧
    (s.host.out = .idle → s.host.replies = [] → exec .replySend s = .next s ∧
      (∀ before x after, q.items = before ++ x :: after → (∀ y ∈ before, y.sent = true) → x.sent = false →
        q.sentCount < 8 → exec .noticeSend s = .next { s with
          notices := { q with items := before ++ { x with sent := true } :: after, sentCount := q.sentCount + 1 }
          host := { s.host with out := .notice (hostFrameBytes x.seq (noticeKind x.body) (noticeFields x.body)) } }) ∧
      (8 ≤ q.sentCount ∨ (∀ y ∈ q.items, y.sent = true) → exec .noticeSend s = .next s)) ∧
    (∀ bytes, s.host.out = .reply bytes false → exec .replySent s = .next { s with host := { s.host with
      out := .idle, holding := s.host.holding.tail } }) ∧
    (∀ bytes, s.host.out = .notice bytes → exec .noticeFrameEnd s = .next { s with host := { s.host with
      out := .idle } }) ∧
    ((∀ bytes, s.host.out ≠ .reply bytes false) → exec .replySent s = .next s) ∧
    ((∀ bytes, s.host.out ≠ .notice bytes) → exec .noticeFrameEnd s = .next s)

/-! ### Part resets -/

/-- The three part resets leave every block at its values after a part reset, sample the straps and post READY as notice
0 with their cause; staging memory is kept at a RESET request alone; a reset at RESETN's rise is a power-on reset when
power was applied meanwhile (R36, R177, R178, R179; the cleared pool entries are the model's choice: log 22). RESETN
going low cuts off the frames being sent and holds the part in reset (the rest of the state until the reset is the
model's choice: log 12), and then no command but the application of power and the rise of RESETN changes anything.
Model's choices as well: HOST_REQUEST_RESET does nothing without a RESET's reply on the line (log 8), RESET_PIN does
nothing while RESETN is high (log 3), POWER_ON on a running part resets it at once, and with RESETN low it is recorded
until RESETN rises (log 13). -/
def Obligations.PartResetsPostReady : Prop :=
  ∀ (s : State) (straps : BitVec 2),
    let after := fun (cause : ResetCause) (m : Memory) => { State.reset with
      mem := m
      notices := ⟨[⟨0, .ready cause, false⟩], 1, 0, 0⟩
      host := ⟨straps, [], [], [], [], .idle⟩
      pending := s.pending }
    (s.heldInReset = false → ∀ bytes, s.host.out = .reply bytes true →
      exec (.hostRequestReset straps) s = .next (after .hostRequest s.mem)) ∧
    (s.heldInReset = false → (∀ bytes, s.host.out ≠ .reply bytes true) → exec (.hostRequestReset straps) s = .next s) ∧
    (s.heldInReset = false → exec (.powerOn straps) s = .next (after .powerOn [])) ∧
    (s.heldInReset = true → exec (.powerOn straps) s = .next { s with powerOnDue := true }) ∧
    (s.heldInReset = true → s.powerOnDue = false → exec (.resetPin straps) s = .next (after .resetPin [])) ∧
    (s.heldInReset = true → s.powerOnDue = true → exec (.resetPin straps) s = .next (after .powerOn [])) ∧
    (s.heldInReset = false → exec (.resetPin straps) s = .next s) ∧
    (s.heldInReset = false → ∃ t, exec .resetnLow s = .next t ∧
      t = { s with heldInReset := true, host := { s.host with out := .idle }, lanes := t.lanes } ∧
      ∀ l, t.lane l = { s.lane l with pair := { (s.lane l).pair with sending := none } }) ∧
    (s.heldInReset = true → ∀ c, (∀ straps, c ≠ .powerOn straps ∧ c ≠ .resetPin straps) → exec c s = .next s)

/-- What a part reset leaves in every block (R8, R25, R36, R37, R61, R81, R85, R88, R104, R105, R155, R165, R166, R179). -/
def Obligations.ResetLeavesTheStatedValues : Prop :=
  (∀ c, State.reset.ctx c = ⟨.free, 0, 0, 0, 0, [], 0, 0, 0, 0, false, false, none⟩) ∧
  State.reset.freeList.map (·.val) = List.range 512 ∧ (∀ a, readByte State.reset.mem a = 0) ∧
  (∀ p : PageId, State.reset.pins[p] = 0) ∧
  (∀ l, let x := State.reset.lane l
    x.ctl = ⟨.down, .none, ⟨20, 3, 0, 256, .flagged⟩, 0, 0, 0, none, none⟩ ∧ x.tx = ⟨[], 0, [], none, 0, none, 0⟩ ∧
    (∀ k : ClassId, x.sched.ready[k] = []) ∧ x.sched.running = none ∧ x.sched.resume = none ∧
    x.rcv = ⟨none, []⟩ ∧ x.pair = ⟨none, [], 0, []⟩ ∧ x.returns = []) ∧
  State.reset.notices = ⟨[⟨0, .ready .powerOn, false⟩], 1, 0, 0⟩ ∧
  State.reset.host.hunter = [] ∧ State.reset.host.holding = [] ∧ State.reset.host.memory = [] ∧
  State.reset.host.replies = [] ∧ State.reset.host.out = .idle

/-! ### Laws that every step keeps -/

/-- Every step keeps the canonical form of staging memory, the laws of the Notice Queue, and the bounds of the holding list
and the reply memory (R157, R170, R172). -/
def Obligations.StepKeepsTheBufferLaws : Prop :=
  ∀ s t : State, step s = .next t → (MemoryLaw s → MemoryLaw t) ∧ (NoticeLaw s.notices → NoticeLaw t.notices) ∧
    (HostLaw s.host → HostLaw t.host)

/-- Every step keeps the laws of every lane: the in-flight list within the window, numbered consecutively and empty outside
UP and HELD; the timers running only where they may; the settings in range and the retry count within the limit; the return
list within 32 (R85, R88, R91, R95, R103, R106, R113, R145). -/
def Obligations.StepKeepsTheLaneLaws : Prop :=
  ∀ s t : State, (∀ l, LaneLaw (s.lane l)) → step s = .next t → ∀ l, LaneLaw (t.lane l)

/-- Every step keeps the laws of the Context Table, the segment pool and the pins: 512 entries in all, each on the free list
or held by one context, every held segment valid, and each page's pin count the number of admitted jobs touching it; and
the tags of two jobs stay different (R2, R5, R10, R31). -/
def Obligations.StepKeepsTheStoreLaws : Prop :=
  ∀ s t : State, step s = .next t → (StoreLaw s → StoreLaw t) ∧ (TagLaw s → TagLaw t)

/-- Every step keeps the laws of the schedulers: every job in exactly the place of its state, the chains of PREEMPTED jobs
falling in priority, no idle lane with a candidate, and one CANCEL for every ABORTING job (R39, R40, R42, R75). -/
def Obligations.StepKeepsTheScheduleLaws : Prop :=
  ∀ s t : State, ScheduleLaw s → step s = .next t → ScheduleLaw t

/-- No command ever stops the part: from a state that meets the laws, every step answers a next state, in which the DATA
frames in flight of every job still run from its acked to its sent position, the positions stand in their order, every entry
in flight is of a job of its lane, and every FREE record is cleared (R8, R11, R106). -/
def Obligations.NoStepStopsThePart : Prop :=
  ∀ s : State, (∀ l, LaneLaw (s.lane l)) → StoreLaw s → ScheduleLaw s → FlowLaw s →
    ∃ t, step s = .next t ∧ FlowLaw t ∧ PositionLaw t ∧ FlightLaw t ∧ ClearedLaw t

/-- The part after reset meets every law. -/
def Obligations.ResetMeetsEveryLaw : Prop :=
  MemoryLaw State.reset ∧ NoticeLaw State.reset.notices ∧ HostLaw State.reset.host ∧
  (∀ l, LaneLaw (State.reset.lane l)) ∧ StoreLaw State.reset ∧ TagLaw State.reset ∧ ScheduleLaw State.reset ∧
  FlowLaw State.reset
end

