-- ==== Sys2Proof/Laws/State.lean ====
section
/-! SUPPORT. State laws: what each update of State leaves and sets, one lemma per field and update. -/

namespace Sys2Proof.Machine

variable (s : State)

/-! ### One context, one lane -/

@[simp] theorem ctx_modCtx_same (c : CtxId) (f : Context → Context) : (s.modCtx c f).ctx c = f (s.ctx c) := by
  simp [State.modCtx, State.ctx]

@[simp] theorem ctx_modCtx_ne {c d : CtxId} (f : Context → Context) (h : c ≠ d) : (s.modCtx c f).ctx d = s.ctx d := by
  simp only [State.modCtx, State.ctx]
  exact Vector.getElem_set_ne _ _ (fun e => h (Fin.ext e))

theorem ctx_modCtx (c d : CtxId) (f : Context → Context) :
    (s.modCtx c f).ctx d = if c = d then f (s.ctx c) else s.ctx d := by
  split
  · next h => subst h; simp
  · next h => exact ctx_modCtx_ne s f h

@[simp] theorem lane_modLane_same (l : LaneId) (f : Lane → Lane) : (s.modLane l f).lane l = f (s.lane l) := by
  simp [State.modLane, State.lane]

@[simp] theorem lane_modLane_ne {l k : LaneId} (f : Lane → Lane) (h : l ≠ k) : (s.modLane l f).lane k = s.lane k := by
  simp only [State.modLane, State.lane]
  exact Vector.getElem_set_ne _ _ (fun e => h (Fin.ext e))

theorem lane_modLane (l k : LaneId) (f : Lane → Lane) :
    (s.modLane l f).lane k = if l = k then f (s.lane l) else s.lane k := by
  split
  · next h => subst h; simp
  · next h => exact lane_modLane_ne s f h

/-- Two states with the same records are one: contexts and lanes compared entry by entry. -/
theorem ctxs_ext {s t : State} (h : ∀ c, s.ctx c = t.ctx c) : s.ctxs = t.ctxs :=
  Vector.ext fun i hi => h ⟨i, hi⟩

/-- A context and a lane are read from their own vector alone. -/
theorem ctx_congr {s t : State} (h : s.ctxs = t.ctxs) (c : CtxId) : s.ctx c = t.ctx c := by simp only [State.ctx, h]

theorem lane_congr {s t : State} (h : s.lanes = t.lanes) (l : LaneId) : s.lane l = t.lane l := by simp only [State.lane, h]

theorem lanes_ext {s t : State} (h : ∀ l, s.lane l = t.lane l) : s.lanes = t.lanes :=
  Vector.ext fun i hi => h ⟨i, hi⟩

/-! ### Updates one after another -/

/-- Two updates of one lane are one. -/
theorem modLane_modLane (l : LaneId) (f g : Lane → Lane) :
    (s.modLane l f).modLane l g = s.modLane l fun x => g (f x) := by
  have h : (s.modLane l f).lane l = f (s.lane l) := lane_modLane_same s l f
  unfold State.modLane at h ⊢
  simp only [h, Vector.set_set]

/-- Two updates of one context are one. -/
theorem modCtx_modCtx (c : CtxId) (f g : Context → Context) :
    (s.modCtx c f).modCtx c g = s.modCtx c fun x => g (f x) := by
  have h : (s.modCtx c f).ctx c = f (s.ctx c) := ctx_modCtx_same s c f
  unfold State.modCtx at h ⊢
  simp only [h, Vector.set_set]

/-- Updates of a lane, a context and the Notice Queue commute. -/
theorem modLane_modCtx (l : LaneId) (f : Lane → Lane) (c : CtxId) (g : Context → Context) :
    (s.modCtx c g).modLane l f = (s.modLane l f).modCtx c g := rfl

theorem modLane_post (l : LaneId) (f : Lane → Lane) (b : NoticeBody) :
    (s.post b).modLane l f = (s.modLane l f).post b := rfl

theorem modCtx_post (c : CtxId) (f : Context → Context) (b : NoticeBody) :
    (s.post b).modCtx c f = (s.modCtx c f).post b := rfl

/-- An update that leaves its record leaves the state. -/
theorem modLane_self (l : LaneId) (f : Lane → Lane) (h : f (s.lane l) = s.lane l) : s.modLane l f = s := by
  unfold State.modLane State.lane at *
  rw [h]
  exact congrArg (fun v => { s with lanes := v }) (Vector.set_getElem_self _)

theorem modCtx_self (c : CtxId) (f : Context → Context) (h : f (s.ctx c) = s.ctx c) : s.modCtx c f = s := by
  unfold State.modCtx State.ctx at *
  rw [h]
  exact congrArg (fun v => { s with ctxs := v }) (Vector.set_getElem_self _)

/-- Only the value at the lane's own record counts. -/
theorem modLane_congr {l : LaneId} {f g : Lane → Lane} (h : f (s.lane l) = g (s.lane l)) : s.modLane l f = s.modLane l g := by
  unfold State.modLane
  rw [h]

theorem modCtx_congr {c : CtxId} {f g : Context → Context} (h : f (s.ctx c) = g (s.ctx c)) : s.modCtx c f = s.modCtx c g := by
  unfold State.modCtx
  rw [h]

/-! ### Fields an update leaves -/

@[simp] theorem modCtx_pool (c : CtxId) (f : Context → Context) : (s.modCtx c f).pool = s.pool := rfl

@[simp] theorem modCtx_freeList (c : CtxId) (f : Context → Context) : (s.modCtx c f).freeList = s.freeList := rfl

@[simp] theorem modCtx_mem (c : CtxId) (f : Context → Context) : (s.modCtx c f).mem = s.mem := rfl

@[simp] theorem modCtx_pins (c : CtxId) (f : Context → Context) : (s.modCtx c f).pins = s.pins := rfl

@[simp] theorem modCtx_lanes (c : CtxId) (f : Context → Context) : (s.modCtx c f).lanes = s.lanes := rfl

@[simp] theorem modCtx_notices (c : CtxId) (f : Context → Context) : (s.modCtx c f).notices = s.notices := rfl

@[simp] theorem modCtx_host (c : CtxId) (f : Context → Context) : (s.modCtx c f).host = s.host := rfl

@[simp] theorem modCtx_heldInReset (c : CtxId) (f : Context → Context) : (s.modCtx c f).heldInReset = s.heldInReset := rfl

@[simp] theorem modCtx_powerOnDue (c : CtxId) (f : Context → Context) : (s.modCtx c f).powerOnDue = s.powerOnDue := rfl

@[simp] theorem modCtx_pending (c : CtxId) (f : Context → Context) : (s.modCtx c f).pending = s.pending := rfl

@[simp] theorem lane_modCtx (c : CtxId) (f : Context → Context) (k : LaneId) : (s.modCtx c f).lane k = s.lane k := rfl

@[simp] theorem modLane_ctxs (l : LaneId) (f : Lane → Lane) : (s.modLane l f).ctxs = s.ctxs := rfl

@[simp] theorem modLane_pool (l : LaneId) (f : Lane → Lane) : (s.modLane l f).pool = s.pool := rfl

@[simp] theorem modLane_freeList (l : LaneId) (f : Lane → Lane) : (s.modLane l f).freeList = s.freeList := rfl

@[simp] theorem modLane_mem (l : LaneId) (f : Lane → Lane) : (s.modLane l f).mem = s.mem := rfl

@[simp] theorem modLane_pins (l : LaneId) (f : Lane → Lane) : (s.modLane l f).pins = s.pins := rfl

@[simp] theorem modLane_notices (l : LaneId) (f : Lane → Lane) : (s.modLane l f).notices = s.notices := rfl

@[simp] theorem modLane_host (l : LaneId) (f : Lane → Lane) : (s.modLane l f).host = s.host := rfl

@[simp] theorem modLane_heldInReset (l : LaneId) (f : Lane → Lane) : (s.modLane l f).heldInReset = s.heldInReset := rfl

@[simp] theorem modLane_powerOnDue (l : LaneId) (f : Lane → Lane) : (s.modLane l f).powerOnDue = s.powerOnDue := rfl

@[simp] theorem modLane_pending (l : LaneId) (f : Lane → Lane) : (s.modLane l f).pending = s.pending := rfl

@[simp] theorem ctx_modLane (l : LaneId) (f : Lane → Lane) (d : CtxId) : (s.modLane l f).ctx d = s.ctx d := rfl

@[simp] theorem modSched_ctxs (l : LaneId) (f : Scheduler → Scheduler) : (s.modSched l f).ctxs = s.ctxs := rfl

@[simp] theorem modSched_pool (l : LaneId) (f : Scheduler → Scheduler) : (s.modSched l f).pool = s.pool := rfl

@[simp] theorem modSched_freeList (l : LaneId) (f : Scheduler → Scheduler) : (s.modSched l f).freeList = s.freeList := rfl

@[simp] theorem modSched_mem (l : LaneId) (f : Scheduler → Scheduler) : (s.modSched l f).mem = s.mem := rfl

@[simp] theorem modSched_pins (l : LaneId) (f : Scheduler → Scheduler) : (s.modSched l f).pins = s.pins := rfl

@[simp] theorem modSched_notices (l : LaneId) (f : Scheduler → Scheduler) : (s.modSched l f).notices = s.notices := rfl

@[simp] theorem modSched_host (l : LaneId) (f : Scheduler → Scheduler) : (s.modSched l f).host = s.host := rfl

@[simp] theorem modSched_heldInReset (l : LaneId) (f : Scheduler → Scheduler) : (s.modSched l f).heldInReset = s.heldInReset := rfl

@[simp] theorem modSched_powerOnDue (l : LaneId) (f : Scheduler → Scheduler) : (s.modSched l f).powerOnDue = s.powerOnDue := rfl

@[simp] theorem modSched_pending (l : LaneId) (f : Scheduler → Scheduler) : (s.modSched l f).pending = s.pending := rfl

@[simp] theorem ctx_modSched (l : LaneId) (f : Scheduler → Scheduler) (d : CtxId) : (s.modSched l f).ctx d = s.ctx d := rfl

@[simp] theorem lane_modSched_same (l : LaneId) (f : Scheduler → Scheduler) :
    (s.modSched l f).lane l = { s.lane l with sched := f (s.lane l).sched } := lane_modLane_same s l _

@[simp] theorem lane_modSched_ne {l k : LaneId} (f : Scheduler → Scheduler) (h : l ≠ k) : (s.modSched l f).lane k = s.lane k :=
  lane_modLane_ne s _ h

@[simp] theorem modTx_ctxs (l : LaneId) (f : Transmitter → Transmitter) : (s.modTx l f).ctxs = s.ctxs := rfl

@[simp] theorem modTx_pool (l : LaneId) (f : Transmitter → Transmitter) : (s.modTx l f).pool = s.pool := rfl

@[simp] theorem modTx_freeList (l : LaneId) (f : Transmitter → Transmitter) : (s.modTx l f).freeList = s.freeList := rfl

@[simp] theorem modTx_mem (l : LaneId) (f : Transmitter → Transmitter) : (s.modTx l f).mem = s.mem := rfl

@[simp] theorem modTx_pins (l : LaneId) (f : Transmitter → Transmitter) : (s.modTx l f).pins = s.pins := rfl

@[simp] theorem modTx_notices (l : LaneId) (f : Transmitter → Transmitter) : (s.modTx l f).notices = s.notices := rfl

@[simp] theorem modTx_host (l : LaneId) (f : Transmitter → Transmitter) : (s.modTx l f).host = s.host := rfl

@[simp] theorem modTx_heldInReset (l : LaneId) (f : Transmitter → Transmitter) : (s.modTx l f).heldInReset = s.heldInReset := rfl

@[simp] theorem modTx_powerOnDue (l : LaneId) (f : Transmitter → Transmitter) : (s.modTx l f).powerOnDue = s.powerOnDue := rfl

@[simp] theorem modTx_pending (l : LaneId) (f : Transmitter → Transmitter) : (s.modTx l f).pending = s.pending := rfl

@[simp] theorem ctx_modTx (l : LaneId) (f : Transmitter → Transmitter) (d : CtxId) : (s.modTx l f).ctx d = s.ctx d := rfl

@[simp] theorem lane_modTx_same (l : LaneId) (f : Transmitter → Transmitter) :
    (s.modTx l f).lane l = { s.lane l with tx := f (s.lane l).tx } := lane_modLane_same s l _

@[simp] theorem lane_modTx_ne {l k : LaneId} (f : Transmitter → Transmitter) (h : l ≠ k) : (s.modTx l f).lane k = s.lane k :=
  lane_modLane_ne s _ h

@[simp] theorem modCtl_ctxs (l : LaneId) (f : Controller → Controller) : (s.modCtl l f).ctxs = s.ctxs := rfl

@[simp] theorem modCtl_pool (l : LaneId) (f : Controller → Controller) : (s.modCtl l f).pool = s.pool := rfl

@[simp] theorem modCtl_freeList (l : LaneId) (f : Controller → Controller) : (s.modCtl l f).freeList = s.freeList := rfl

@[simp] theorem modCtl_mem (l : LaneId) (f : Controller → Controller) : (s.modCtl l f).mem = s.mem := rfl

@[simp] theorem modCtl_pins (l : LaneId) (f : Controller → Controller) : (s.modCtl l f).pins = s.pins := rfl

@[simp] theorem modCtl_notices (l : LaneId) (f : Controller → Controller) : (s.modCtl l f).notices = s.notices := rfl

@[simp] theorem modCtl_host (l : LaneId) (f : Controller → Controller) : (s.modCtl l f).host = s.host := rfl

@[simp] theorem modCtl_heldInReset (l : LaneId) (f : Controller → Controller) : (s.modCtl l f).heldInReset = s.heldInReset := rfl

@[simp] theorem modCtl_powerOnDue (l : LaneId) (f : Controller → Controller) : (s.modCtl l f).powerOnDue = s.powerOnDue := rfl

@[simp] theorem modCtl_pending (l : LaneId) (f : Controller → Controller) : (s.modCtl l f).pending = s.pending := rfl

@[simp] theorem ctx_modCtl (l : LaneId) (f : Controller → Controller) (d : CtxId) : (s.modCtl l f).ctx d = s.ctx d := rfl

@[simp] theorem lane_modCtl_same (l : LaneId) (f : Controller → Controller) :
    (s.modCtl l f).lane l = { s.lane l with ctl := f (s.lane l).ctl } := lane_modLane_same s l _

@[simp] theorem lane_modCtl_ne {l k : LaneId} (f : Controller → Controller) (h : l ≠ k) : (s.modCtl l f).lane k = s.lane k :=
  lane_modLane_ne s _ h

@[simp] theorem modRcv_ctxs (l : LaneId) (f : Receiver → Receiver) : (s.modRcv l f).ctxs = s.ctxs := rfl

@[simp] theorem modRcv_pool (l : LaneId) (f : Receiver → Receiver) : (s.modRcv l f).pool = s.pool := rfl

@[simp] theorem modRcv_freeList (l : LaneId) (f : Receiver → Receiver) : (s.modRcv l f).freeList = s.freeList := rfl

@[simp] theorem modRcv_mem (l : LaneId) (f : Receiver → Receiver) : (s.modRcv l f).mem = s.mem := rfl

@[simp] theorem modRcv_pins (l : LaneId) (f : Receiver → Receiver) : (s.modRcv l f).pins = s.pins := rfl

@[simp] theorem modRcv_notices (l : LaneId) (f : Receiver → Receiver) : (s.modRcv l f).notices = s.notices := rfl

@[simp] theorem modRcv_host (l : LaneId) (f : Receiver → Receiver) : (s.modRcv l f).host = s.host := rfl

@[simp] theorem modRcv_heldInReset (l : LaneId) (f : Receiver → Receiver) : (s.modRcv l f).heldInReset = s.heldInReset := rfl

@[simp] theorem modRcv_powerOnDue (l : LaneId) (f : Receiver → Receiver) : (s.modRcv l f).powerOnDue = s.powerOnDue := rfl

@[simp] theorem modRcv_pending (l : LaneId) (f : Receiver → Receiver) : (s.modRcv l f).pending = s.pending := rfl

@[simp] theorem ctx_modRcv (l : LaneId) (f : Receiver → Receiver) (d : CtxId) : (s.modRcv l f).ctx d = s.ctx d := rfl

@[simp] theorem lane_modRcv_same (l : LaneId) (f : Receiver → Receiver) :
    (s.modRcv l f).lane l = { s.lane l with rcv := f (s.lane l).rcv } := lane_modLane_same s l _

@[simp] theorem lane_modRcv_ne {l k : LaneId} (f : Receiver → Receiver) (h : l ≠ k) : (s.modRcv l f).lane k = s.lane k :=
  lane_modLane_ne s _ h

@[simp] theorem modPair_ctxs (l : LaneId) (f : TxPair → TxPair) : (s.modPair l f).ctxs = s.ctxs := rfl

@[simp] theorem modPair_pool (l : LaneId) (f : TxPair → TxPair) : (s.modPair l f).pool = s.pool := rfl

@[simp] theorem modPair_freeList (l : LaneId) (f : TxPair → TxPair) : (s.modPair l f).freeList = s.freeList := rfl

@[simp] theorem modPair_mem (l : LaneId) (f : TxPair → TxPair) : (s.modPair l f).mem = s.mem := rfl

@[simp] theorem modPair_pins (l : LaneId) (f : TxPair → TxPair) : (s.modPair l f).pins = s.pins := rfl

@[simp] theorem modPair_notices (l : LaneId) (f : TxPair → TxPair) : (s.modPair l f).notices = s.notices := rfl

@[simp] theorem modPair_host (l : LaneId) (f : TxPair → TxPair) : (s.modPair l f).host = s.host := rfl

@[simp] theorem modPair_heldInReset (l : LaneId) (f : TxPair → TxPair) : (s.modPair l f).heldInReset = s.heldInReset := rfl

@[simp] theorem modPair_powerOnDue (l : LaneId) (f : TxPair → TxPair) : (s.modPair l f).powerOnDue = s.powerOnDue := rfl

@[simp] theorem modPair_pending (l : LaneId) (f : TxPair → TxPair) : (s.modPair l f).pending = s.pending := rfl

@[simp] theorem ctx_modPair (l : LaneId) (f : TxPair → TxPair) (d : CtxId) : (s.modPair l f).ctx d = s.ctx d := rfl

@[simp] theorem lane_modPair_same (l : LaneId) (f : TxPair → TxPair) :
    (s.modPair l f).lane l = { s.lane l with pair := f (s.lane l).pair } := lane_modLane_same s l _

@[simp] theorem lane_modPair_ne {l k : LaneId} (f : TxPair → TxPair) (h : l ≠ k) : (s.modPair l f).lane k = s.lane k :=
  lane_modLane_ne s _ h

@[simp] theorem post_ctxs (b : NoticeBody) : (s.post b).ctxs = s.ctxs := rfl

@[simp] theorem post_pool (b : NoticeBody) : (s.post b).pool = s.pool := rfl

@[simp] theorem post_freeList (b : NoticeBody) : (s.post b).freeList = s.freeList := rfl

@[simp] theorem post_mem (b : NoticeBody) : (s.post b).mem = s.mem := rfl

@[simp] theorem post_pins (b : NoticeBody) : (s.post b).pins = s.pins := rfl

@[simp] theorem post_lanes (b : NoticeBody) : (s.post b).lanes = s.lanes := rfl

@[simp] theorem post_host (b : NoticeBody) : (s.post b).host = s.host := rfl

@[simp] theorem post_heldInReset (b : NoticeBody) : (s.post b).heldInReset = s.heldInReset := rfl

@[simp] theorem post_powerOnDue (b : NoticeBody) : (s.post b).powerOnDue = s.powerOnDue := rfl

@[simp] theorem post_pending (b : NoticeBody) : (s.post b).pending = s.pending := rfl

@[simp] theorem ctx_post (b : NoticeBody) (d : CtxId) : (s.post b).ctx d = s.ctx d := rfl

@[simp] theorem lane_post (b : NoticeBody) (k : LaneId) : (s.post b).lane k = s.lane k := rfl

@[simp] theorem post_notices (b : NoticeBody) : (s.post b).notices = postTo s.notices b := rfl

@[simp] theorem postLaneState_ctxs (l : LaneId) (x : LaneCause) : (s.postLaneState l x).ctxs = s.ctxs := rfl

@[simp] theorem postLaneState_pool (l : LaneId) (x : LaneCause) : (s.postLaneState l x).pool = s.pool := rfl

@[simp] theorem postLaneState_freeList (l : LaneId) (x : LaneCause) : (s.postLaneState l x).freeList = s.freeList := rfl

@[simp] theorem postLaneState_mem (l : LaneId) (x : LaneCause) : (s.postLaneState l x).mem = s.mem := rfl

@[simp] theorem postLaneState_pins (l : LaneId) (x : LaneCause) : (s.postLaneState l x).pins = s.pins := rfl

@[simp] theorem postLaneState_lanes (l : LaneId) (x : LaneCause) : (s.postLaneState l x).lanes = s.lanes := rfl

@[simp] theorem postLaneState_host (l : LaneId) (x : LaneCause) : (s.postLaneState l x).host = s.host := rfl

@[simp] theorem postLaneState_heldInReset (l : LaneId) (x : LaneCause) : (s.postLaneState l x).heldInReset = s.heldInReset := rfl

@[simp] theorem postLaneState_powerOnDue (l : LaneId) (x : LaneCause) : (s.postLaneState l x).powerOnDue = s.powerOnDue := rfl

@[simp] theorem postLaneState_pending (l : LaneId) (x : LaneCause) : (s.postLaneState l x).pending = s.pending := rfl

@[simp] theorem ctx_postLaneState (l : LaneId) (x : LaneCause) (d : CtxId) : (s.postLaneState l x).ctx d = s.ctx d := rfl

@[simp] theorem lane_postLaneState (l : LaneId) (x : LaneCause) (k : LaneId) : (s.postLaneState l x).lane k = s.lane k := rfl

@[simp] theorem postLaneState_notices (l : LaneId) (x : LaneCause) :
    (s.postLaneState l x).notices = postTo s.notices (.laneState l (s.lane l).ctl.state x) := rfl

@[simp] theorem freeCtx_mem (c : CtxId) (r : EndReason) : (s.freeCtx c r).mem = s.mem := by
  simp [State.freeCtx]

@[simp] theorem freeCtx_lanes (c : CtxId) (r : EndReason) : (s.freeCtx c r).lanes = s.lanes := by
  simp [State.freeCtx]

@[simp] theorem freeCtx_host (c : CtxId) (r : EndReason) : (s.freeCtx c r).host = s.host := by
  simp [State.freeCtx]

@[simp] theorem freeCtx_heldInReset (c : CtxId) (r : EndReason) : (s.freeCtx c r).heldInReset = s.heldInReset := by
  simp [State.freeCtx]

@[simp] theorem freeCtx_powerOnDue (c : CtxId) (r : EndReason) : (s.freeCtx c r).powerOnDue = s.powerOnDue := by
  simp [State.freeCtx]

@[simp] theorem freeCtx_pending (c : CtxId) (r : EndReason) : (s.freeCtx c r).pending = s.pending := by
  simp [State.freeCtx]

@[simp] theorem lane_freeCtx (c : CtxId) (r : EndReason) (k : LaneId) : (s.freeCtx c r).lane k = s.lane k := by
  simp [State.freeCtx, State.lane]

@[simp] theorem freeCtx_freeList (c : CtxId) (r : EndReason) : (s.freeCtx c r).freeList = s.freeList ++ (s.ctx c).segs := by
  simp [State.freeCtx]

@[simp] theorem freeCtx_pool (c : CtxId) (r : EndReason) : (s.freeCtx c r).pool = clearEntries s.pool (s.ctx c).segs := by
  simp [State.freeCtx]

@[simp] theorem freeCtx_pins (c : CtxId) (r : EndReason) : (s.freeCtx c r).pins = unpinPages s.pins (s.jobSegments c) := by
  simp [State.freeCtx]

@[simp] theorem freeCtx_notices (c : CtxId) (r : EndReason) :
    (s.freeCtx c r).notices = postTo s.notices (.jobEnd (s.ctx c).tag (s.ctx c).lane r (s.ctx c).acked) := by
  simp [State.freeCtx]

@[simp] theorem ctx_freeCtx_same (c : CtxId) (r : EndReason) : (s.freeCtx c r).ctx c = {} := by
  simp [State.freeCtx]

@[simp] theorem ctx_freeCtx_ne {c d : CtxId} (r : EndReason) (h : c ≠ d) : (s.freeCtx c r).ctx d = s.ctx d := by
  unfold State.freeCtx
  rw [ctx_modCtx_ne _ _ h, ctx_post]
  exact ctx_congr (by rfl) d

/-! ### What a part reset sets -/

@[simp] theorem partReset_notices (x : ResetCause) (straps : BitVec 2) (keep : Bool) :
    (s.partReset x straps keep).notices = NoticeQueue.afterReset x := rfl

@[simp] theorem partReset_host (x : ResetCause) (straps : BitVec 2) (keep : Bool) :
    (s.partReset x straps keep).host = HostLink.afterReset straps := rfl

@[simp] theorem partReset_mem (x : ResetCause) (straps : BitVec 2) (keep : Bool) :
    (s.partReset x straps keep).mem = if keep then s.mem else [] := rfl

end Sys2Proof.Machine
end

