-- ==== Sys2Proof/Laws/Frames.lean ====
section
/-! SUPPORT. Frame laws: forming frames again succeeds where they exist, and a retransmission is `State.resent`; and what
the scheduling laws depend on. -/

namespace Sys2Proof.Machine

/-- A frame is formed from the contexts, the pool, staging memory and the lane's settings alone. -/
theorem frameOf_congr {s t : State} {l : LaneId} {e : InFlight} (hc : s.ctxs = t.ctxs) (hp : s.pool = t.pool)
    (hm : s.mem = t.mem) (hl : (s.lane l).ctl.config = (t.lane l).ctl.config) : frameOf s l e = frameOf t l e := by
  simp only [frameOf, State.segmentAt, State.jobSegments, State.ctx, hc, hp, hm, hl]

theorem formable_congr {s t : State} {l : LaneId} {e : InFlight} (hc : s.ctxs = t.ctxs) (hp : s.pool = t.pool)
    (hl : (s.lane l).ctl.config = (t.lane l).ctl.config) : formable s l e ↔ formable t l e := by
  simp only [formable, State.segmentAt, State.jobSegments, State.ctx, hc, hp, hl]

/-- The payload of a frame that exists lies inside staging memory. -/
theorem payloadOf_ok {m : Memory} {g : Segment} {p f : Nat} (hf : f * p < g.length) (hg : g.offset + g.length ≤ 131072) :
    payloadOf m g p f = .ok (readBytes m (g.offset + f * p) (min p (g.length - f * p))) := by
  have h : g.offset + f * p + min p (g.length - f * p) ≤ Config.stagingBytes := by
    simp only [Config.stagingBytes]; omega
  exact if_pos h

theorem formFrame_formable {s : State} {l : LaneId} {e : InFlight} (h : formable s l e) :
    s.formFrame l e = .ok (frameOf s l e) := by
  unfold State.formFrame frameOf
  cases hw : e.what with
  | cancel => rfl
  | data k f flags =>
    obtain ⟨g, hg, hf, ho⟩ := h k f flags hw
    simp only [hg, payloadOf_ok hf ho, Option.getD_some]

theorem formFrames_formable {s : State} {l : LaneId} {es : List InFlight} (h : ∀ e ∈ es, formable s l e) :
    s.formFrames l es = .ok (es.map fun e => ⟨frameOf s l e, some e.seq⟩) := by
  induction es with
  | nil => rfl
  | cons e es ih =>
    unfold State.formFrames
    rw [formFrame_formable (h e List.mem_cons_self), ih fun x hx => h x (List.mem_cons_of_mem _ hx)]
    rfl

/-- A retransmission of entries whose frames exist (R122). -/
theorem retransmit_formable {s : State} {l : LaneId} {es : List InFlight} (h : ∀ e ∈ es, formable s l e) :
    s.retransmit l es = .ok (s.resent l es) := by
  unfold State.retransmit State.resent
  rw [formFrames_formable h]
  simp only [State.modPair, State.modTx, modLane_modLane, Config.counterCeiling]
  exact congrArg Except.ok (modLane_congr _ rfl)

/-- A chain is a matter of the contexts' links alone. -/
theorem chainFrom_congr {s t : State} (h : t.ctxs = s.ctxs) (n : Nat) (o : Option CtxId) :
    chainFrom t n o = chainFrom s n o := by
  induction n generalizing o with
  | zero => rfl
  | succ n ih =>
    cases o with
    | none => rfl
    | some c => simp only [chainFrom, ih, State.ctx, h]

theorem chainOf_congr {s t : State} (hc : t.ctxs = s.ctxs) (hl : t.lanes = s.lanes) (l : LaneId) :
    chainOf t l = chainOf s l := by
  simp only [chainOf, State.lane, hl, State.ctx, hc, chainFrom_congr hc]

/-- The scheduling laws are a matter of the contexts and the lanes alone. -/
theorem scheduleLaw_congr {s t : State} (hc : t.ctxs = s.ctxs) (hl : t.lanes = s.lanes) (h : ScheduleLaw s) :
    ScheduleLaw t := by
  obtain ⟨place, chain, idle, cancel, started⟩ := h
  have e := chainOf_congr hc hl
  cases s
  cases t
  dsimp only at hc hl
  subst hc hl
  refine ⟨fun c => ⟨(place c).1, (place c).2.1, (place c).2.2.1, fun l => ?_, (place c).2.2.2.2⟩, fun l => ?_, idle, cancel,
    started⟩
  · rw [e l]
    exact (place c).2.2.2.1 l
  · rw [e l]
    exact chain l
end Sys2Proof.Machine
end

