-- ==== Sys2Proof/Laws/Memory.lean ====
section
/-! SUPPORT. Memory laws: staging memory keeps its canonical form, and a byte written is the byte read. -/

namespace Sys2Proof.Machine

/-- What the canonical form says of the first entry and of the rest. -/
theorem memoryFormAbove_cons {low : Option Nat} {a : Nat} {v : Byte} {m : Memory} :
    memoryFormAbove low ((a, v) :: m) = true ↔
      (∀ x, low = some x → x < a) ∧ a < Config.stagingBytes ∧ v ≠ 0 ∧ memoryFormAbove (some a) m = true := by
  cases low <;> simp [memoryFormAbove, and_assoc]

/-- A lower bound may be lowered. -/
theorem memoryFormAbove_mono {low low' : Option Nat} {m : Memory} (h : ∀ y, low' = some y → ∃ x, low = some x ∧ y ≤ x)
    (hm : memoryFormAbove low m = true) : memoryFormAbove low' m = true := by
  cases m with
  | nil => rfl
  | cons e m =>
    obtain ⟨a, v⟩ := e
    rw [memoryFormAbove_cons] at hm ⊢
    refine ⟨fun y hy => ?_, hm.2⟩
    obtain ⟨x, hx, hxy⟩ := h y hy
    exact lt_of_le_of_lt hxy (hm.1 x hx)

/-- An address at or below the bound reads as an unlisted address. -/
theorem readByte_below {low : Nat} {m : Memory} (hm : memoryFormAbove (some low) m = true) {x : Nat} (h : x ≤ low) :
    readByte m x = 0 := by
  induction m generalizing low with
  | nil => rfl
  | cons e m ih =>
    obtain ⟨a, v⟩ := e
    rw [memoryFormAbove_cons] at hm
    have ha : low < a := hm.1 low rfl
    rw [readByte, if_neg (by omega)]
    exact ih hm.2.2.2 (by omega)

/-- Writing one byte keeps the canonical form. -/
theorem writeByte_formAbove {low : Option Nat} {m : Memory} (hm : memoryFormAbove low m = true) {x : Nat} (b : Byte)
    (hx : x < Config.stagingBytes) (hlow : ∀ y, low = some y → y < x) : memoryFormAbove low (writeByte m x b) = true := by
  induction m generalizing low with
  | nil =>
    unfold writeByte
    split
    · rfl
    · rw [memoryFormAbove_cons]; exact ⟨hlow, hx, ‹_›, rfl⟩
  | cons e m ih =>
    obtain ⟨a, v⟩ := e
    have h := memoryFormAbove_cons.mp hm
    unfold writeByte
    split
    · split
      · exact hm
      · rw [memoryFormAbove_cons]
        exact ⟨hlow, hx, ‹_›, memoryFormAbove_cons.mpr ⟨fun y hy => by cases hy; assumption, h.2⟩⟩
    · split
      · next heq =>
        subst heq
        split
        · exact memoryFormAbove_mono (fun y hy => ⟨x, rfl, (hlow y hy).le⟩) h.2.2.2
        · exact memoryFormAbove_cons.mpr ⟨hlow, hx, ‹_›, h.2.2.2⟩
      · rw [memoryFormAbove_cons]
        exact ⟨h.1, h.2.1, h.2.2.1, ih h.2.2.2 (fun y hy => by cases hy; omega)⟩

theorem writeByte_wf {m : Memory} (hm : memoryWf m = true) {x : Nat} (b : Byte) (hx : x < Config.stagingBytes) :
    memoryWf (writeByte m x b) = true :=
  writeByte_formAbove hm b hx (by simp)

theorem writeBytes_wf {m : Memory} (hm : memoryWf m = true) {x : Nat} (bs : List Byte)
    (hx : x + bs.length ≤ Config.stagingBytes) : memoryWf (writeBytes m x bs) = true := by
  induction bs generalizing m x with
  | nil => exact hm
  | cons b bs ih =>
    simp only [List.length_cons] at hx
    exact ih (writeByte_wf hm b (by omega)) (by omega)

/-- Writing a byte leaves every other address. -/
theorem readByte_writeByte_ne (m : Memory) {x y : Nat} (b : Byte) (h : x ≠ y) :
    readByte (writeByte m x b) y = readByte m y := by
  induction m with
  | nil => unfold writeByte; split <;> simp [readByte, h]
  | cons e m ih =>
    obtain ⟨a, v⟩ := e
    unfold writeByte
    split
    · split <;> simp [readByte, h]
    · split
      · next heq => subst heq; split <;> simp [readByte, h]
      · simp [readByte, ih]

/-- A byte written is the byte read. -/
theorem readByte_writeByte_same {low : Option Nat} {m : Memory} (hm : memoryFormAbove low m = true) (x : Nat) (b : Byte) :
    readByte (writeByte m x b) x = b := by
  induction m generalizing low with
  | nil => unfold writeByte; split <;> simp_all [readByte]
  | cons e m ih =>
    obtain ⟨a, v⟩ := e
    have h := memoryFormAbove_cons.mp hm
    unfold writeByte
    split
    · split
      · next hxa hb =>
        subst hb
        rw [readByte, if_neg (by omega)]
        exact readByte_below h.2.2.2 (by omega)
      · simp [readByte]
    · split
      · next heq =>
        subst heq
        split
        · next hb => subst hb; exact readByte_below h.2.2.2 le_rfl
        · simp [readByte]
      · next h1 h2 =>
        rw [readByte, if_neg (by omega)]
        exact ih h.2.2.2

/-- Addresses outside a block written are left. -/
theorem readByte_writeBytes_outside (m : Memory) {x y : Nat} (bs : List Byte) (h : y < x ∨ x + bs.length ≤ y) :
    readByte (writeBytes m x bs) y = readByte m y := by
  induction bs generalizing m x with
  | nil => rfl
  | cons b bs ih =>
    simp only [List.length_cons] at h
    rw [writeBytes, ih _ (by omega), readByte_writeByte_ne _ _ (by omega)]

/-- Equal memories in canonical form read alike, and memories that read alike are equal. -/
theorem memory_ext {low : Option Nat} {m n : Memory} (hm : memoryFormAbove low m = true) (hn : memoryFormAbove low n = true)
    (h : ∀ x, readByte m x = readByte n x) : m = n := by
  induction m generalizing low n with
  | nil =>
    cases n with
    | nil => rfl
    | cons e n =>
      obtain ⟨a, v⟩ := e
      have := h a
      simp only [readByte, if_true] at this
      exact absurd this.symm (memoryFormAbove_cons.mp hn).2.2.1
  | cons e m ih =>
    obtain ⟨a, v⟩ := e
    have hm' := memoryFormAbove_cons.mp hm
    cases n with
    | nil =>
      have := h a
      simp only [readByte, if_true] at this
      exact absurd this hm'.2.2.1
    | cons f n =>
      obtain ⟨c, w⟩ := f
      have hn' := memoryFormAbove_cons.mp hn
      have hac : a = c := by
        rcases Nat.lt_trichotomy a c with hlt | heq | hgt
        · have := h a
          rw [readByte, if_pos rfl, readByte, if_neg (by omega), readByte_below hn'.2.2.2 (by omega)] at this
          exact absurd this hm'.2.2.1
        · exact heq
        · have := h c
          rw [readByte, if_neg (by omega), readByte_below hm'.2.2.2 (by omega), readByte, if_pos rfl] at this
          exact absurd this.symm hn'.2.2.1
      subst hac
      have hv : v = w := by simpa [readByte] using h a
      subst hv
      congr 1
      refine ih hm'.2.2.2 hn'.2.2.2 fun x => ?_
      by_cases hx : a = x
      · subst hx; rw [readByte_below hm'.2.2.2 le_rfl, readByte_below hn'.2.2.2 le_rfl]
      · simpa [readByte, hx] using h x

/-- The number of bytes read is the number asked for. -/
@[simp] theorem readBytes_length (m : Memory) (x n : Nat) : (readBytes m x n).length = n := by
  induction n generalizing x with
  | zero => rfl
  | succ n ih => simp [readBytes, ih]

/-- Staging memory after a power-on reset has the canonical form. -/
theorem reset_memoryWf : memoryWf State.reset.mem = true := rfl

end Sys2Proof.Machine
end

