-- ==== Sys2Proof/Laws/Operations.lean ====
section
/-! SUPPORT. Operation laws: for each shared operation, once, everything that it can do. -/

namespace Sys2Proof.Machine

/-! ### Outcomes -/

theorem outcomeOf_next {x : Except Fault State} {t : State} : outcomeOf x = .next t ↔ x = .ok t := by
  cases x <;> simp [outcomeOf]

theorem outcomeOf_fault {x : Except Fault State} {f : Fault} : outcomeOf x = .fault f ↔ x = .error f := by
  cases x <;> simp [outcomeOf]

@[simp] theorem outcomeOf_refused {x : Except Fault State} {r : Refusal} : outcomeOf x ≠ .refused r := by
  cases x <;> simp [outcomeOf]

/-- An event taken unless the part is held in reset. -/
theorem unlessHeld_next {s t : State} {e : Host.Outcome State Fault Refusal} :
    unlessHeld s e = .next t ↔ (s.heldInReset = true ∧ t = s) ∨ (s.heldInReset = false ∧ e = .next t) := by
  unfold unlessHeld
  cases s.heldInReset <;> simp [eq_comm]

/-- A station frame: not in reset, handed on, and then its owner's effect. -/
theorem onFrame_next {s t : State} {l : LaneId} {frame : List Byte} {owner : State → Except Fault State}
    (h : onFrame s l frame owner = .next t) :
    t = s ∨ ∃ u, s.handOn l frame = some u ∧ owner u = .ok t := by
  unfold onFrame at h
  rcases unlessHeld_next.mp h with ⟨-, rfl⟩ | ⟨-, h⟩
  · exact .inl rfl
  · split at h
    · cases h; exact .inl rfl
    · exact .inr ⟨_, ‹_›, outcomeOf_next.mp h⟩

/-- A frame handed on changes the receiver's own bytes at most. -/
theorem handOn_some {s u : State} {l : LaneId} {frame : List Byte} (h : s.handOn l frame = some u) :
    u = s ∨ ∃ rx, u = s.modRcv l fun r => { r with rx := rx } := by
  unfold State.handOn at h
  dsimp only at h
  split at h
  · exact .inl (by cases h; rfl)
  · split at h
    · exact .inr ⟨_, by cases h; rfl⟩
    · cases h

/-! ### Requests -/

/-- The four things the Request Decoder can do with a request command. -/
theorem takeRequest_next {s t : State} {r : Request} {k : Byte} {perform : State → Answer}
    (h : takeRequest s r k perform = .next t) :
    (t = s ∧ (s.heldInReset = true ∨ takesNext s r = false)) ∨
    (s.heldInReset = false ∧ takesNext s r = true ∧ ∃ frame, storedReply s.host.memory r.seq r.kind = some frame ∧
      t = { s with host := { s.host with holding := markTaken s.host.holding,
                                         replies := s.host.replies ++ [⟨frame, false⟩] } }) ∨
    (s.heldInReset = false ∧ takesNext s r = true ∧ storedReply s.host.memory r.seq r.kind = none ∧
      ∃ a, a = perform { s with host := { s.host with holding := markTaken s.host.holding } } ∧
        t = { a.state with host := a.state.host.answer r k a.body a.resets }) := by
  unfold takeRequest at h
  split at h
  · next hr => cases h; exact .inl ⟨rfl, .inl hr⟩
  · next hr =>
    split at h
    · next ht =>
      dsimp only at h
      split at h
      · next frame hf => cases h; exact .inr (.inl ⟨by simpa using hr, ht, frame, hf, rfl⟩)
      · next hf => cases h; exact .inr (.inr ⟨by simpa using hr, ht, hf, _, rfl, rfl⟩)
    · next ht => cases h; exact .inl ⟨rfl, .inr (by simpa using ht)⟩

/-- A request command never stops the part. -/
theorem takeRequest_total (s : State) (r : Request) (k : Byte) (perform : State → Answer) :
    ∃ t, takeRequest s r k perform = .next t := by
  unfold takeRequest
  split
  · exact ⟨_, rfl⟩
  · split
    · dsimp only; split <;> exact ⟨_, rfl⟩
    · exact ⟨_, rfl⟩

@[simp] theorem markTaken_length (hs : List Held) : (markTaken hs).length = hs.length := by
  induction hs with
  | nil => rfl
  | cons h hs ih => unfold markTaken; split <;> simp [ih]

/-- Marking a request taken changes no request. -/
@[simp] theorem markTaken_map_req (hs : List Held) : (markTaken hs).map (·.req) = hs.map (·.req) := by
  induction hs with
  | nil => rfl
  | cons h hs ih => unfold markTaken; split <;> simp [ih]

theorem joinHolding_length (holding : List Held) (r : Request) (h : holding.length ≤ Config.holdingCapacity) :
    (joinHolding holding r).length ≤ Config.holdingCapacity := by
  unfold joinHolding
  split
  · simp only [List.length_append, List.length_singleton]; omega
  · exact h

/-! ### The Notice Queue -/

theorem postTo_room {q : NoticeQueue} (b : NoticeBody) (h : q.items.length < Config.noticeCapacity) :
    postTo q b = { q with items := q.items ++ [⟨q.nextSeq, b, false⟩], nextSeq := q.nextSeq + 1 } := by
  simp [postTo, h]

theorem postTo_full {q : NoticeQueue} (b : NoticeBody) (h : Config.noticeCapacity ≤ q.items.length) :
    postTo q b = { q with lost := min Config.counterCeiling (q.lost + 1) } := by
  simp [postTo, h]

/-- Posting leaves the sent count. -/
@[simp] theorem postTo_sentCount (q : NoticeQueue) (b : NoticeBody) : (postTo q b).sentCount = q.sentCount := by
  unfold postTo; split <;> rfl

/-- The notices removed by an acknowledgement are a prefix that ends in the sent notice named. -/
theorem dropThrough_some {n : BitVec 8} {items rest : List Notice} {k : Nat} (h : dropThrough n items = some (k, rest)) :
    ∃ pre x, items = pre ++ x :: rest ∧ k = pre.length + 1 ∧ x.sent = true ∧ x.seq = n := by
  induction items generalizing k rest with
  | nil => cases h
  | cons y ys ih =>
    unfold dropThrough at h
    split at h
    · next hy =>
      cases h
      exact ⟨[], y, rfl, rfl, by simp_all⟩
    · simp only [Option.map_eq_some_iff] at h
      obtain ⟨⟨j, r⟩, hj, he⟩ := h
      cases he
      obtain ⟨pre, x, hx, hk, h3⟩ := ih hj
      exact ⟨y :: pre, x, by simp [hx], by simp [hk], h3⟩

/-- The notice sent is the oldest unsent one. -/
theorem sendOldest_some {items after : List Notice} {x : Notice} (h : sendOldest items = some (x, after)) :
    ∃ pre post, items = pre ++ x :: post ∧ after = pre ++ { x with sent := true } :: post ∧ x.sent = false ∧
      ∀ y ∈ pre, y.sent = true := by
  induction items generalizing after with
  | nil => cases h
  | cons y ys ih =>
    unfold sendOldest at h
    split at h
    · next hy =>
      simp only [Option.map_eq_some_iff] at h
      obtain ⟨⟨z, r⟩, hz, he⟩ := h
      cases he
      obtain ⟨pre, post, h1, h2, h3, h4⟩ := ih hz
      exact ⟨y :: pre, post, by simp [h1], by simp [h2], h3, by simpa [hy] using h4⟩
    · next hy =>
      cases h
      exact ⟨[], ys, rfl, rfl, by simpa using hy, by simp⟩

/-! ### The Lane Scheduler -/

/-- Selection does nothing, takes the best ready head, or takes the job at the resume point (R43, R44). -/
theorem select_cases (s : State) (l : LaneId) :
    (s.select l = s ∧ (selects (s.lane l).ctl.state = false ∨ (s.lane l).sched.running.isSome = true ∨
        (bestReady (s.lane l).sched.ready = none ∧ (s.lane l).sched.resume = none))) ∨
    (selects (s.lane l).ctl.state = true ∧ (s.lane l).sched.running = none ∧
      ((∃ k c, bestReady (s.lane l).sched.ready = some (k, c) ∧ s.select l = s.takeHead l k c ∧
          ∀ r, (s.lane l).sched.resume = some r → (s.ctx c).cls < (s.ctx r).cls) ∨
       (∃ r, (s.lane l).sched.resume = some r ∧ s.select l = s.takeResume l r ∧
          ∀ k c, bestReady (s.lane l).sched.ready = some (k, c) → ¬ (s.ctx c).cls < (s.ctx r).cls))) := by
  unfold State.select
  dsimp only
  split
  · next hg =>
    simp only [Bool.and_eq_true, Option.isNone_iff_eq_none] at hg
    split
    · next k c hb hr => exact .inr ⟨hg.1, hg.2, .inl ⟨k, c, hb, rfl, by simp [hr]⟩⟩
    · next k c r hb hr =>
      split
      · next hlt => exact .inr ⟨hg.1, hg.2, .inl ⟨k, c, hb, rfl, fun r' h' => by rw [hr] at h'; cases h'; exact hlt⟩⟩
      · next hlt =>
        exact .inr ⟨hg.1, hg.2, .inr ⟨r, hr, rfl, fun k' c' h' => by rw [hb] at h'; cases h'; exact hlt⟩⟩
    · next r hb hr => exact .inr ⟨hg.1, hg.2, .inr ⟨r, hr, rfl, by simp [hb]⟩⟩
    · next hb hr => exact .inl ⟨rfl, .inr (.inr ⟨hb, hr⟩)⟩
  · next hg =>
    refine .inl ⟨rfl, ?_⟩
    cases hs : selects (s.lane l).ctl.state
    · exact .inl rfl
    · refine .inr (.inl ?_)
      cases hr : (s.lane l).sched.running <;> simp_all

/-- A boundary does nothing, suspends the running job, or preempts it (R48, R49). -/
theorem evalBoundary_cases (s : State) (l : LaneId) :
    s.evalBoundary l = s ∨
    ∃ c, (s.lane l).sched.running = some c ∧ s.boundBefore c (s.ctx c).sent = false ∧
      (((s.ctx c).suspendPending = true ∧ s.evalBoundary l = s.suspendAtBoundary l c) ∨
       ((s.ctx c).suspendPending = false ∧ ∃ k h, bestReady (s.lane l).sched.ready = some (k, h) ∧
          (s.ctx h).cls < (s.ctx c).cls ∧ s.evalBoundary l = s.preempt l c k h)) := by
  unfold State.evalBoundary
  split
  · exact .inl rfl
  · next c hc =>
    split
    · exact .inl rfl
    · next hb =>
      split
      · next hp => exact .inr ⟨c, hc, by simpa using hb, .inl ⟨hp, rfl⟩⟩
      · next hp =>
        split
        · next k h hq =>
          split
          · next hlt => exact .inr ⟨c, hc, by simpa using hb, .inr ⟨by simpa using hp, k, h, hq, hlt, rfl⟩⟩
          · exact .inl rfl
        · exact .inl rfl

/-- Withdrawal by state (R56). -/
theorem withdraw_cases (s : State) (c : CtxId) :
    ((s.ctx c).state = .queued ∧ s.withdraw c = s.unqueue c) ∨
    ((s.ctx c).state = .running ∧ s.withdraw c = s.vacate (s.ctx c).lane c) ∨
    ((s.ctx c).state = .preempted ∧ s.withdraw c = s.splice (s.ctx c).lane c) ∨ s.withdraw c = s := by
  unfold State.withdraw
  cases h : (s.ctx c).state <;> simp

/-! ### The Lane Transmitter -/

/-- An ACK's entries: everything up to the entry named. -/
theorem splitThrough_some {n : Nat} {es removed rest : List InFlight} (h : splitThrough n es = some (removed, rest)) :
    es = removed ++ rest ∧ ∃ pre e, removed = pre ++ [e] ∧ e.seq.toNat = n := by
  induction es generalizing removed with
  | nil => cases h
  | cons e es ih =>
    unfold splitThrough at h
    split at h
    · next he => cases h; exact ⟨rfl, [], e, rfl, he⟩
    · simp only [Option.map_eq_some_iff] at h
      obtain ⟨⟨a, b⟩, hab, hq⟩ := h
      cases hq
      obtain ⟨h1, pre, x, h2, h3⟩ := ih hab
      exact ⟨by simp [h1], e :: pre, x, by simp [h2], h3⟩

/-- Frames formed together: one copy of each entry, in list order. -/
theorem formFrames_ok {s : State} {l : LaneId} {es : List InFlight} {fs : List WaitingFrame}
    (h : s.formFrames l es = .ok fs) : fs.map (·.copyOf) = es.map fun e => some e.seq := by
  induction es generalizing fs with
  | nil => cases h; rfl
  | cons e es ih =>
    unfold State.formFrames at h
    split at h
    · cases h
    · split at h
      · cases h
      · next hfs => cases h; simp [ih hfs]

/-- A retransmission changes what waits for the pair and the total, and nothing else (R122). -/
theorem retransmit_ok {s t : State} {l : LaneId} {es : List InFlight} (h : s.retransmit l es = .ok t) :
    ∃ fs, s.formFrames l es = .ok fs ∧
      t = (s.modPair l fun p =>
          { p with frames := p.frames.filter (fun w => !(es.any fun e => w.copyOf == some e.seq)) ++ fs }).modTx l
        fun x => { x with retxTotal := min Config.counterCeiling (x.retxTotal + es.length) } := by
  unfold State.retransmit at h
  split at h
  · cases h
  · exact ⟨_, ‹_›, by cases h; rfl⟩

/-- A retry: the count one higher, and FAULT above the limit (R123). -/
theorem retryOr_ok {s t : State} {l : LaneId} {again : State → Except Fault State} (h : s.retryOr l again = .ok t) :
    ((s.lane l).ctl.config.retryLimit < (s.lane l).tx.retry + 1 ∧
      t = (s.modTx l fun x => { x with retry := x.retry + 1 }).enterFault l .retryLimit .retryLimit) ∨
    ((s.lane l).tx.retry + 1 ≤ (s.lane l).ctl.config.retryLimit ∧
      again (s.modTx l fun x => { x with retry := x.retry + 1 }) = .ok t) := by
  unfold State.retryOr at h
  simp only [lane_modTx_same] at h
  split at h
  · next hl => exact .inl ⟨hl, (Except.ok.inj h).symm⟩
  · next hl => exact .inr ⟨by omega, h⟩

end Sys2Proof.Machine
end

