-- ==== Sys2Proof/Tests/Slice0.lean ====
section
/-! SUPPORT. Tests: WellFormed's checks, single steps whose results are the spec's own tables and examples, and for every
obligation with hypotheses a state and operands that meet them. -/

namespace Sys2Proof.Tests

set_option Elab.async false

open Sys2Proof Sys2Proof.Machine

/-! ### WellFormed refuses what the links cannot carry -/

theorem test_wellFormed_body_fits : (Instr.write 0 (List.replicate 521 0)).wellFormed = false := by decide +kernel
theorem test_wellFormed_longest_body : (Instr.submit 0 (List.replicate 520 0)).wellFormed = true := by decide +kernel
theorem test_wellFormed_unknown_kind : (Instr.unknownKindRequest 0 0x20 []).wellFormed = false := by decide
theorem test_wellFormed_reply_body : (Instr.reply 0 0 0 0 (List.replicate 65 0)).wellFormed = false := by decide +kernel
theorem test_no_word_spells_a_command : decodeTableWord 8 1 = none := rfl

/-! ### States to test on -/

/-- A request held and to be taken next. -/
def asking (s : State) (r : Request) : State :=
  { s with host := { HostLink.afterReset 0 with holding := [⟨r, false⟩] } }

theorem asking_performs (s : State) (r : Request) (h : s.heldInReset = false) : performs (asking s r) r := ⟨h, rfl, rfl, rfl⟩

theorem hunting_handsOn (s : State) (l : LaneId) (frame : List Byte) (h : s.heldInReset = false)
    (hr : (s.lane l).rcv.rx = []) : handsOn s l frame s := ⟨h, by simp [State.handOn, hr]⟩

/-- What a field reads after a command that answers a next state. -/
def after (c : Instr) (s : State) : State :=
  match exec c s with
  | .next t => t
  | _ => s

/-- The body of the last pending reply. -/
def lastReply (s : State) : Option (List Byte) := s.host.replies.getLast?.map (·.frame.body)

/-- Lane 0 in a state, with a window. -/
def laneIn (st : LaneState) (window : Nat) (s : State) : State :=
  s.modCtl 0 fun c => { c with state := st, window := window }

/-- A context with one segment per pool entry given. -/
def job (st : JobState) (tag : Tag) (cls : ClassId) (segs : List PoolId) : Context :=
  { state := st, tag := tag, cls := cls, segCount := segs.length, segs := segs }

/-- Six jobs on lane 0, one in each non-FREE state: job 10 (HIGH) runs and has preempted job 11 (BULK); job 12 (NORMAL)
waits; job 13 is SUSPENDED; job 14 drains with its two frames in flight; job 15 is ABORTING with its CANCEL in flight. Every
segment is the 300 bytes at offset 0, in two frames of at most 256. -/
def busy : State :=
  let s := laneIn .up 8 State.reset
  let s := { s with
    freeList := s.freeList.drop 7
    pool := Vector.ofFn fun e : PoolId => if e.val < 7 then { offset := 0, length := 300 } else {}
    pins := s.pins.set 0 6 }
  let s := s.modCtx 0 fun _ => { job .running 10 1 [0, 1] with cut := 1, started := true, link := some 1 }
  let s := s.modCtx 1 fun _ => job .preempted 11 3 [2]
  let s := s.modCtx 2 fun _ => job .queued 12 2 [3]
  let s := s.modCtx 3 fun _ => job .suspended 13 2 [4]
  let s := s.modCtx 4 fun _ => { job .draining 14 0 [5] with started := true, sent := 1 }
  let s := s.modCtx 5 fun _ => { job .aborting 15 0 [6] with started := true, cut := 1 }
  let s := s.modSched 0 fun d => { d with ready := d.ready.set 2 [2], running := some 0 }
  s.modTx 0 fun t => { t with
    inFlight := [⟨0, 4, .data 0 0 ⟨true, false, false, false⟩⟩, ⟨1, 4, .data 0 1 ⟨false, true, true, false⟩⟩, ⟨2, 5, .cancel⟩,
      ⟨3, 0, .data 0 0 ⟨true, false, false, false⟩⟩]
    nextSeq := 4
    ackTimer := some 20 }

theorem busy_laneLaw : ∀ l, LaneLaw (busy.lane l) := by
  unfold LaneLaw WindowLaw TimerLaw SettingsLaw ReturnLaw
  decide +kernel

theorem busy_placeLaw : PlaceLaw busy := by
  unfold PlaceLaw
  dsimp only
  decide +kernel

theorem busy_scheduleLaw : ScheduleLaw busy :=
  ⟨busy_placeLaw, by unfold ChainLaw; decide +kernel, by unfold IdleLaw; decide +kernel, by unfold CancelLaw; decide +kernel,
    by unfold StartedLaw; decide +kernel⟩

theorem busy_storeLaw : StoreLaw busy :=
  ⟨by unfold PoolLaw; decide +kernel, List.perm_append_comm.trans (List.Perm.of_eq (by decide +kernel)), by unfold SegmentLaw; decide +kernel,
    by unfold PinLaw; decide +kernel⟩

theorem busy_tagLaw : TagLaw busy := by
  unfold TagLaw
  decide +kernel

theorem busy_flowLaw : FlowLaw busy := by
  have places : ∀ c : CtxId, runsTo ((busy.ctx c).acked, if c = 5 then 1 else 0)
      (framesOf (busy.lane (busy.ctx c).lane).tx.inFlight c) ((busy.ctx c).sent, (busy.ctx c).cut) = true := by decide +kernel
  have entries : ∀ l, ∀ e ∈ (busy.lane l).tx.inFlight, (busy.ctx e.ctx).state ≠ .free ∧ (busy.ctx e.ctx).lane = l ∧
      (match e.what with
        | .data k f _ => frameExists busy e.ctx k f
        | .cancel => true) = true := by decide +kernel
  have records : ∀ c : CtxId, let x := busy.ctx c
      (x.state = .free → x = {}) ∧ x.sent ≤ x.segCount ∧ x.resend ≤ x.segCount ∧
      (x.cut ≠ 0 → frameExists busy c x.sent x.cut = true) ∧
      (x.state = .draining → x.sent = x.segCount ∧ x.acked < x.segCount) ∧
      ((x.state = .queued ∨ x.state = .running ∨ x.state = .preempted ∨ x.state = .suspended) → x.sent < x.segCount) ∧
      (x.state ≠ .running → x.state ≠ .aborting → x.cut = 0) ∧
      (x.started = false → x.acked = 0 ∧ x.sent = 0 ∧ x.cut = 0) ∧
      (selects (busy.lane x.lane).ctl.state = false → x.cut = 0) := by dsimp only; decide +kernel
  refine ⟨fun l e he => ⟨(entries l e he).1, (entries l e he).2.1, fun k f flags hw => ?_⟩, by decide +kernel, fun c => ?_⟩
  · simpa only [hw] using (entries l e he).2.2
  · exact ⟨(records c).1, ⟨_, places c⟩, (records c).2⟩

/-! ### Single steps, with the results the spec gives -/

/-- R180's check values. -/
theorem test_crc_check_values : crc16 [0x31, 0x32, 0x33, 0x34, 0x35, 0x36, 0x37, 0x38, 0x39] = 0x29B1 ∧ crc16 [0x01] = 0xF1D1 := by
  decide +kernel

/-- R181's IDENTIFY frame is received and held. -/
theorem test_hostFrameReceived_identify :
    (after (.hostFrameReceived [0x00, 0x7E, 0x02, 0x00, 0x05, 0x01, 0x7C, 0x86]) State.reset).host.holding =
      [⟨⟨5, 0x01, []⟩, false⟩] := by decide +kernel

/-- A length of 523 is discarded at once, and the frame behind it is found (R169). -/
theorem test_hostFrameReceived_bad_length :
    (after (.hostFrameReceived ([0x7E, 0x0B, 0x02] ++ [0x7E, 0x02, 0x00, 0x05, 0x01, 0x7C, 0x86])) State.reset).host.holding =
      [⟨⟨5, 0x01, []⟩, false⟩] := by decide +kernel

/-- R175: vendor 0x5047, part 0x0848, revision 3. -/
theorem test_identify_reply :
    (lastReply (after (.identify 5 []) (asking State.reset ⟨5, 0x01, []⟩))).map (·.take 6) =
      some [0, 0x47, 0x50, 0x48, 0x08, 3] := by decide +kernel

/-- The example of section 1.1: segments at 1000, 6144 and 3500 pin pages 0, 1 and 3 once each. -/
theorem test_submit_pins_pages :
    let body := submitBody 0 2 7 3 [⟨1000, 3000, 0⟩, ⟨6144, 2048, 0⟩, ⟨3500, 100, 0⟩]
    ((after (.submit 1 body) (asking State.reset ⟨1, 0x20, body⟩)).pins.toList.take 5) = [1, 1, 0, 1, 0] := by decide +kernel

/-- A class of 9 in a body whose length agrees with its count is refused at the value check (R17). -/
theorem test_submit_bad_value :
    let body := submitBody 0 9 7 2 [⟨0, 1, 0⟩, ⟨0, 1, 0⟩]
    lastReply (after (.submit 1 body) (asking State.reset ⟨1, 0x20, body⟩)) = some [5] := by decide +kernel

/-- The last byte of staging memory can be written, the one behind it cannot (R27). -/
theorem test_write_at_the_top :
    lastReply (after (.write 1 [0xFF, 0xFF, 0x01, 0x00, 9]) (asking State.reset ⟨1, 0x10, [0xFF, 0xFF, 0x01, 0x00, 9]⟩)) =
      some [0] ∧
    lastReply (after (.write 1 [0x00, 0x00, 0x02, 0x00, 9]) (asking State.reset ⟨1, 0x10, [0x00, 0x00, 0x02, 0x00, 9]⟩)) =
      some [7] := by decide +kernel

/-- A WRITE to the page the six jobs pin is refused PINNED with page 0 (R27). -/
theorem test_write_pinned :
    lastReply (after (.write 1 [0, 0, 0, 0, 9]) (asking busy ⟨1, 0x10, [0, 0, 0, 0, 9]⟩)) = some [8, 0] := by decide +kernel

/-- Memory never written reads 0 (R36). -/
theorem test_read_zeros :
    lastReply (after (.read 1 [0, 0, 0, 0, 3, 0]) (asking State.reset ⟨1, 0x11, [0, 0, 0, 0, 3, 0]⟩)) = some [0, 0, 0, 0] := by
  decide +kernel

/-- SUSPEND of a RUNNING job is answered PENDING (R65), of a PREEMPTED job OK, and the chain closes (R64). -/
theorem test_suspend_running_and_preempted :
    lastReply (after (.suspend 1 [10, 0]) (asking busy ⟨1, 0x21, [10, 0]⟩)) = some [1] ∧
    chainOf (after (.suspend 1 [11, 0]) (asking busy ⟨1, 0x21, [11, 0]⟩)) 0 = [] := by decide +kernel

/-- RESUME queues the job behind the one that waits (R70). -/
theorem test_resume_joins_the_tail :
    ((after (.resume 1 [13, 0]) (asking busy ⟨1, 0x22, [13, 0]⟩)).lane 0).sched.ready[2] = [2, 3] := by decide +kernel

/-- ABORT of the running started job: ABORTING in the reply, the waiting NORMAL job selected ahead of the BULK chain, its
link naming it (R74, R43). -/
theorem test_abort_running :
    let t := after (.abort 1 [10, 0]) (asking busy ⟨1, 0x23, [10, 0]⟩)
    lastReply t = some [0, 6] ∧ (t.lane 0).sched.running = some 2 ∧ (t.ctx 2).link = some 1 ∧
      (t.lane 0).tx.cancels = [⟨0, 10⟩] := by decide +kernel

/-- JOB_STATUS of the running job: context 0, RUNNING, its return link's tag 11 (R24). -/
theorem test_jobStatus_reply :
    lastReply (after (.jobStatus 1 [10, 0]) (asking busy ⟨1, 0x24, [10, 0]⟩)) = some [0, 0, 2, 0, 1, 2, 0, 0, 2, 11, 0] := by
  decide +kernel

/-- The opened lane has its PROBE to send and its timer running (R90). -/
theorem test_laneOpen :
    let t := after (.laneOpen 1 [3]) (asking State.reset ⟨1, 0x31, [3]⟩)
    (t.lane 3).ctl.state = .syncing ∧ (t.lane 3).ctl.probeTimer = some 10 ∧ (t.lane 3).pair.probes = 1 := by decide +kernel

/-- HELLO in SYNCING selects the waiting job (R92). -/
theorem test_hello_selects :
    let s := (laneIn .syncing 0 State.reset).modCtx 7 fun _ => job .queued 9 1 [4]
    let t := after (.hello 0 4 77) (s.modSched 0 fun d => { d with ready := d.ready.set 1 [7] })
    (t.lane 0).ctl.state = .up ∧ (t.lane 0).sched.running = some 7 := by decide +kernel

/-- An ACK of number 1 completes the draining job: its JOB_END follows READY in the queue, COMPLETED with one segment (R116,
R117). -/
theorem test_ack_completes :
    (after (.ack 0 1) busy).notices.items.map (·.body) = [.ready .powerOn, .jobEnd 14 0 .completed 1] := by decide +kernel

/-- A NAK of number 2 sends the CANCEL and the frame behind it again (R119, R122). -/
theorem test_nak_retransmits :
    ((after (.nak 0 2) busy).lane 0).tx.retxTotal = 2 ∧
    ((after (.nak 0 2) busy).lane 0).pair.frames.map (·.copyOf) = [some 2, some 3] := by decide +kernel

/-- HOLD stops the ack timer; with hold limit 0 no hold timer runs (R95). -/
theorem test_hold :
    ((after (.hold 0) busy).lane 0).ctl.state = .held ∧ ((after (.hold 0) busy).lane 0).tx.ackTimer = none ∧
    ((after (.hold 0) busy).lane 0).ctl.holdTimer = none := by decide +kernel

/-- The running job's second frame of 44 bytes is the last of segment 0; the NORMAL job does not outrank HIGH, so the job
goes on with segment 1 (R108, R49). -/
theorem test_dataCut_reaches_a_boundary :
    ((after (.dataCut 0) busy).ctx 0).sent = 1 ∧ ((after (.dataCut 0) busy).ctx 0).cut = 0 ∧
    ((after (.dataCut 0) busy).lane 0).sched.running = some 0 ∧
    ((after (.dataCut 0) busy).lane 0).tx.inFlight.getLast? =
      some ⟨4, 0, .data 0 1 ⟨false, true, false, false⟩⟩ := by decide +kernel

/-- Entry into FAULT by the hold limit: the CANCEL returns, the draining job waits at the head of its queue (R129, R131). -/
theorem test_holdTimerExpiry_fault :
    let s := (laneIn .held 8 busy).modCtl 0 fun c => { c with holdTimer := some 5 }
    let t := after (.holdTimerExpiry 0) s
    (t.lane 0).tx.cancels = [⟨5, 15⟩] ∧ (t.lane 0).sched.ready[0] = [4] ∧ (t.ctx 4).resend = 1 ∧ (t.ctx 4).sent = 0 ∧
      (t.ctx 0).resend = 1 ∧ (t.ctx 0).state = .running := by decide +kernel

/-- After the 16th PROBE the lane enters FAULT with NO_STATION (R91). -/
theorem test_probeTimerExpiry_limit :
    let s := State.reset.modCtl 2 fun c => { c with state := .syncing, probeTimer := some 10, probeCount := 16 }
    ((after (.probeTimerExpiry 2) s).lane 2).ctl.lastFault = .noStation := by decide +kernel

/-- Steps 1 and 2 of the example of section 8.3: the return is kept once, and RACK answers both REPLYs. -/
theorem test_reply_duplicate :
    let t := after (.reply 0 1 500 3 []) (after (.reply 0 1 500 3 []) (laneIn .up 8 State.reset))
    (t.lane 0).returns = [⟨500, 3, []⟩] ∧ (t.lane 0).pair.answers = [.rack true, .rack true] := by decide +kernel

/-- The FETCH of that return leaves 0 (R151). -/
theorem test_fetch_reply :
    let s := State.reset.modLane 0 fun x => { x with returns := [⟨500, 3, []⟩] }
    lastReply (after (.fetch 1 [0]) (asking s ⟨1, 0x40, [0]⟩)) = some [0, 0xF4, 0x01, 3, 0, 0] := by decide +kernel

/-- READY is the first notice sent, as notice 0 (R166, R184). -/
theorem test_noticeSend_ready :
    (after .noticeSend State.reset).host.out = .notice (hostFrameBytes 0 0x60 [0]) ∧
    (after .noticeSend State.reset).notices.sentCount = 1 := by decide +kernel

/-- ACK_NOTICES with a nonzero lost count posts OVERFLOW with the count (R162). -/
theorem test_ackNotices_overflow :
    let s := { State.reset with notices := ⟨[⟨0, .ready .powerOn, true⟩], 1, 1, 5⟩ }
    (after (.ackNotices 1 [0]) (asking s ⟨1, 0x50, [0]⟩)).notices = ⟨[⟨1, .overflow 5, false⟩], 2, 0, 0⟩ := by decide +kernel

/-- A RESET request keeps staging memory (R36); power-on clears it. -/
theorem test_resets_and_memory :
    let s := { State.reset with mem := [(5, 9)], host := { State.reset.host with out := .reply [] true } }
    (after (.hostRequestReset 2) s).mem = [(5, 9)] ∧ (after (.hostRequestReset 2) s).host.straps = 2 ∧
    (after (.powerOn 1) s).mem = [] := by decide +kernel

/-- A frame with a part's own type is discarded, and the HOLD behind it is found (R83). -/
theorem test_laneFrameDiscard :
    ((after (.laneFrameDiscard 0 ([0x7E, 0x01, 0xD1, 0xF1] ++ holdBytes)) State.reset).lane 0).rcv.rx = holdBytes := by
  decide +kernel

/-! ### States and operands that meet the hypotheses of the obligations -/

/-- Whether a command answers a next state. -/
def answers (c : Instr) (s : State) : Bool :=
  match exec c s with
  | .next _ => true
  | _ => false

theorem exec_of_answers (c : Instr) (s : State) (h : answers c s = true) : exec c s = .next (after c s) := by
  unfold answers at h
  unfold after
  split at h
  · next e => rw [e]
  · cases h

/-- Four requests held and taken. -/
def fullHolding : State :=
  { State.reset with host := { State.reset.host with holding := List.replicate 4 ⟨⟨1, 0x01, []⟩, true⟩ } }

/-- The part while RESETN is low. -/
def inReset : State := { State.reset with heldInReset := true }

/-- The receive hunter is collecting. -/
def collecting (bytes : List Byte) : State := { State.reset with host := { State.reset.host with hunter := bytes } }

/-- A record of the reply memory. -/
def record (seq : Byte) : Record := ⟨seq, 0x01, ⟨seq, 0x81, [0]⟩⟩

/-- A lane that is UP and holds nothing, with one suspended job. -/
def quiet : State := (laneIn .up 8 State.reset).modCtx 0 fun _ => { job .suspended 13 2 [] with segCount := 1 }

/-- A request held changes no place a law of the jobs and lanes speaks of, and neither does a command that waits. -/
theorem asking_scheduleLaw (s : State) (r : Request) (h : ScheduleLaw s) : ScheduleLaw (asking s r) :=
  scheduleLaw_congr (s := s) rfl rfl h
theorem asking_idleLaw (s : State) (r : Request) (h : IdleLaw s) : IdleLaw (asking s r) := h
theorem asking_storeLaw (s : State) (r : Request) (h : StoreLaw s) : StoreLaw (asking s r) := h
theorem asking_holdsTag (s : State) (r : Request) (tag : Tag) (c : CtxId) (h : holdsTag s tag c) :
    holdsTag (asking s r) tag c := h

def withPending (s : State) (c : Instr) : State := { s with pending := [c] }

theorem withPending_laws (s : State) (c : Instr) (hl : ∀ l, LaneLaw (s.lane l)) (hs : StoreLaw s) (ht : TagLaw s)
    (hd : ScheduleLaw s) (hf : FlowLaw s) : (∀ l, LaneLaw ((withPending s c).lane l)) ∧ StoreLaw (withPending s c) ∧
    TagLaw (withPending s c) ∧ ScheduleLaw (withPending s c) ∧ FlowLaw (withPending s c) := 
  ⟨hl, hs, ht, scheduleLaw_congr (s := s) rfl rfl hd, hf⟩

theorem withPending_step (s : State) (c : Instr) (hp : s.pending = []) (h : answers c s = true) :
    step (withPending s c) = .next (after c s) := by
  have : step (withPending s c) = exec c s := by
    show exec c { s with pending := [] } = _
    rw [← hp]
  rw [this, exec_of_answers c s h]

theorem witness_HostFramesAreReadBackInAnyPieces :
    (List.replicate 520 (0 : Byte)).length ≤ 520 ∧ Config.marker ∉ [0x00, 0xFF] ∧ State.reset.heldInReset = false := by
  decide +kernel

theorem witness_HostFrameJoinsHoldingList :
    State.reset.heldInReset = false ∧ State.reset.host.hunter = [] ∧ State.reset.host.holding.length < 4 ∧
    fullHolding.heldInReset = false ∧ fullHolding.host.hunter = [] ∧ 4 ≤ fullHolding.host.holding.length ∧
    (List.replicate 520 (0 : Byte)).length ≤ 520 ∧
    (Config.marker ∉ ([0x01, 0x00] : List Byte) ∧ (le16 0x01 0x00).toNat < 2) ∧
    (Config.marker ∉ ([0x0B, 0x02] : List Byte) ∧ 522 < (le16 0x0B 0x02).toNat) ∧
    Config.marker ∉ ([0x02, 0x00, 0x05, 0x01, 0x7C, 0x87] : List Byte) ∧
    crcBytes ([0x02, 0x00] ++ [0x05, 0x01]) ≠ [0x7C, 0x87] ∧
    ((le16 0x00 0x00).toNat < 2 ∧ 0x00 :: 0x00 :: hostFrameBytes 5 0x01 [] = [0x00, 0x00] ++ hostFrameBytes 5 0x01 []) ∧
    (hostFrameBytes 5 0x01 [] = [] ++ hostFrameBytes 5 0x01 [] ∧ 522 < (le16 0x7E 0x02).toNat) ∧
    ((le16 0x02 0x00).toNat + 2 ≤ (hostFrameBytes 5 0x01 []).length ∧
      crcBytes (0x02 :: 0x00 :: (hostFrameBytes 5 0x01 []).take 2) ≠ ((hostFrameBytes 5 0x01 []).drop 2).take 2) := by
  decide +kernel

theorem witness_GapDiscardReadsAgain :
    State.reset.host.hunter = [] ∧ (collecting [0x7E, 0x02, 0x00]).heldInReset = false ∧
    (collecting [0x7E, 0x02, 0x00]).host.hunter = Config.marker :: [0x02, 0x00] ∧
    scanHostFrame [0x02, 0x00] = .incomplete ∧ Config.marker ∉ ([0x02, 0x00] : List Byte) ∧
    scanHostFrame ([0x10, 0x00] ++ hostFrameBytes 5 0x01 []) = .incomplete ∧ Config.marker ∉ ([0x10, 0x00] : List Byte) := by
  decide +kernel

theorem witness_RequestOutOfTurnIsNotTaken :
    requestOf (.identify 5 []) = some ⟨5, 0x01, []⟩ ∧ inReset.heldInReset = true ∧
    resetAwaited { State.reset.host with out := .reply [0] true } = true ∧
    nextRequest State.reset.host.holding ≠ some ⟨5, 0x01, []⟩ := by decide +kernel

theorem witness_DuplicateGetsTheStoredReply :
    let s := asking State.reset ⟨5, 0x01, [9]⟩
    let s := { s with host := { s.host with memory := [record 5] } }
    s.heldInReset = false ∧ resetAwaited s.host = false ∧ nextRequest s.host.holding = some ⟨5, 0x01, [9]⟩ ∧
    storedReply s.host.memory 5 0x01 = some ⟨5, 0x81, [0]⟩ := by decide +kernel

/-- Every request command meets the hypotheses, as the only request held. -/
theorem witness_EveryRequestIsAnsweredOnce (c : Instr) (r : Request) (_ : requestOf c = some r) :
    performs (asking State.reset r) r := asking_performs _ _ rfl

theorem witness_ReplyMemoryKeepsTheLastFour :
    let memory := [record 1, record 2, record 3, record 4]
    memory.length ≤ 4 ∧ (memory.map (·.seq)).Nodup ∧ memory = [record 1] ++ record 2 :: [record 3, record 4] ∧
    (record 5).seq ∉ memory.map (·.seq) ∧ memory.length = 4 ∧
    (record 5).seq ∉ (memory.tail.map (·.seq)) ∧ memory.tail.length < 4 ∧ (memory.tail.map (·.seq)).Nodup := by decide +kernel

theorem witness_IdentifyAndUnknownKindsAreAnswered :
    performs (asking State.reset ⟨5, 0x01, []⟩) ⟨5, 0x01, []⟩ ∧ performs (asking State.reset ⟨5, 0x01, [0]⟩) ⟨5, 0x01, [0]⟩ ∧
    performs (asking State.reset ⟨5, 0x81, []⟩) ⟨5, 0x81, []⟩ ∧ 0x81 ∉ requestKinds :=
  ⟨asking_performs _ _ rfl, asking_performs _ _ rfl, asking_performs _ _ rfl, by decide⟩

theorem witness_ResetRequestBlocksTheDecoder :
    performs (asking busy ⟨5, 0x02, []⟩) ⟨5, 0x02, []⟩ ∧ performs (asking busy ⟨5, 0x02, [0]⟩) ⟨5, 0x02, [0]⟩ ∧
    inReset.heldInReset = true ∧
    (let s := after (.reset 5 []) (asking State.reset ⟨5, 0x02, []⟩);
      resetAwaited s.host = true ∧ requestOf (.identify 6 []) = some ⟨6, 0x01, []⟩ ∧ answers .replySend s = true) :=
  ⟨asking_performs _ _ rfl, asking_performs _ _ rfl, rfl, by decide +kernel⟩

/-- The sum that is out of range by one, and one whose low 32 bits alone would be in range. -/
theorem witness_WriteIsCheckedInOrder :
    (∀ body, performs (asking busy ⟨5, 0x10, body⟩) ⟨5, 0x10, body⟩) ∧
    131072 < (0x1FFFF : BitVec 32).toNat + ([1, 2] : List Byte).length ∧
    131072 < (0xFFFFFFFF : BitVec 32).toNat + ([1] : List Byte).length ∧
    (2047 : BitVec 32).toNat + ([1, 2] : List Byte).length ≤ 131072 ∧ touchesPage (2047 : BitVec 32).toNat 2 (0 : PageId).val ∧
    (asking busy ⟨5, 0x10, bytes32 2047 ++ [1, 2]⟩).pins[(0 : PageId)] ≠ 0 ∧
    (∀ q : PageId, q < 0 → touchesPage (2047 : BitVec 32).toNat 2 q.val → busy.pins[q] = 0) :=
  ⟨fun _ => asking_performs _ _ rfl, by unfold touchesPage; decide +kernel⟩

theorem witness_WritePlacesEveryByte :
    let r : Request := ⟨5, 0x10, bytes32 0x1FFFF ++ [9]⟩
    MemoryLaw (asking State.reset r) ∧ performs (asking State.reset r) r ∧
    (0x1FFFF : BitVec 32).toNat + ([9] : List Byte).length ≤ 131072 ∧
    ∀ p : PageId, (asking State.reset r).pins[p] = 0 :=
  ⟨by unfold MemoryLaw; decide, asking_performs _ _ rfl, by decide, by decide +kernel⟩

/-- The refused WRITE to page 0, and the last byte of that page. -/
theorem witness_PinnedPagesAreNeverWritten :
    let s := asking busy ⟨1, 0x10, [0, 0, 0, 0, 9]⟩
    exec (.write 1 [0, 0, 0, 0, 9]) s = .next (after (.write 1 [0, 0, 0, 0, 9]) s) ∧ 2047 / 2048 = (0 : PageId).val ∧
    s.pins[(0 : PageId)] ≠ 0 :=
  ⟨exec_of_answers _ _ (by decide +kernel), rfl, by decide +kernel⟩

theorem witness_ReadReturnsTheBytes :
    (∀ body, performs (asking busy ⟨5, 0x11, body⟩) ⟨5, 0x11, body⟩) ∧ (513 : Word16).toNat > 512 ∧ (0 : Word16).toNat < 1 ∧
    131072 < (130561 : BitVec 32).toNat + (512 : Word16).toNat ∧
    (130560 : BitVec 32).toNat + (512 : Word16).toNat ≤ 131072 := ⟨fun _ => asking_performs _ _ rfl, by decide⟩

theorem witness_PinMapReportsTheCounts (body : List Byte) : performs (asking busy ⟨5, 0x12, body⟩) ⟨5, 0x12, body⟩ :=
  asking_performs _ _ rfl

/-- A state in which every context is taken, and one in which one entry of the pool is free. -/
def noContext : State := { State.reset with ctxs := Vector.replicate 48 (job .suspended 1 0 [0]) }
def oneEntry : State := { State.reset with freeList := [511] }

theorem witness_SubmitIsCheckedInOrder :
    (∀ s : State, s.heldInReset = false → ∀ body, performs (asking s ⟨5, 0x20, body⟩) ⟨5, 0x20, body⟩) ∧
    ([0, 0, 0, 0] : List Byte).length < 5 ∧ ([] : List Byte).length ≠ 7 * (1 : Byte).toNat ∧
    8 ≤ (8 : Byte).toNat ∧ 4 ≤ (4 : Byte).toNat ∧ 32 < (33 : Byte).toNat ∧
    ((busy.ctx 0).state ≠ .free ∧ (busy.ctx 0).tag = 10) ∧ (∀ c, (busy.ctx c).state ≠ .free → (busy.ctx c).tag ≠ 16) ∧
    (validSegment ⟨0, 8192, 3⟩ ∧ ¬ validSegment ⟨122881, 8192, 0⟩) ∧
    (∀ c, (noContext.ctx c).state ≠ .free) ∧ (∀ c, (noContext.ctx c).tag ≠ 2) ∧
    oneEntry.freeList.length < [Descriptor.mk 0 1 0, ⟨0, 1, 0⟩].length ∧ (oneEntry.ctx 0).state = .free ∧
    (∀ c, (oneEntry.ctx c).state = .free) :=
  ⟨fun _ h _ => asking_performs _ _ h, by unfold validSegment; decide +kernel⟩

theorem witness_SubmitAdmitsTheJob_freeLists : State.reset.freeList.Nodup ∧ busy.freeList.Nodup :=
  have h : State.reset.freeList = List.finRange 512 ∧ busy.freeList = (List.finRange 512).drop 7 := by decide +kernel
  ⟨by rw [h.1]; exact List.nodup_finRange 512, by
    rw [h.2]; exact (List.nodup_finRange 512).sublist (List.drop_sublist ..)⟩

/-- A job behind a running one, one that runs at once, and one for a lane that is DOWN. -/
theorem witness_SubmitAdmitsTheJob :
    (∀ body, performs (asking busy ⟨5, 0x20, body⟩) ⟨5, 0x20, body⟩ ∧
      performs (asking (laneIn .up 8 State.reset) ⟨5, 0x20, body⟩) ⟨5, 0x20, body⟩ ∧
      performs (asking State.reset ⟨5, 0x20, body⟩) ⟨5, 0x20, body⟩) ∧
    validSegment ⟨122880, 8192, 3⟩ ∧ (∀ d, (busy.ctx d).state ≠ .free → (busy.ctx d).tag ≠ 16) ∧
    (busy.ctx 6).state = .free ∧ (∀ d, d < 6 → (busy.ctx d).state ≠ .free) ∧ 32 ≤ busy.freeList.length ∧
    (busy.lane 0).sched.running ≠ none ∧
    (∀ d, (State.reset.ctx d).state = .free) ∧ selects ((laneIn .up 8 State.reset).lane 0).ctl.state = true ∧
    ((laneIn .up 8 State.reset).lane 0).sched.running = none ∧ selects (State.reset.lane 7).ctl.state = false :=
  ⟨fun _ => ⟨asking_performs _ _ rfl, asking_performs _ _ rfl, asking_performs _ _ rfl⟩, by
    unfold validSegment; decide +kernel⟩

/-- The three states meet the premise on idle lanes, whatever request is held. -/
theorem witness_SubmitAdmitsTheJob_idleLaw (r : Request) :
    IdleLaw (asking busy r) ∧ IdleLaw (asking (laneIn .up 8 State.reset) r) ∧ IdleLaw (asking State.reset r) :=
  ⟨asking_idleLaw _ _ busy_scheduleLaw.2.2.1, asking_idleLaw _ _ (by unfold IdleLaw; decide +kernel),
    asking_idleLaw _ _ (by unfold IdleLaw; decide +kernel)⟩

theorem witness_OneFieldRequestsAreChecked :
    (∀ kind body, performs (asking busy ⟨5, kind, body⟩) ⟨5, kind, body⟩) ∧
    (Instr.suspend 5 [16, 0], (0x21 : Byte)) ∈ [(Instr.suspend 5 [16, 0], (0x21 : Byte)), (.resume 5 [16, 0], 0x22),
      (.abort 5 [16, 0], 0x23), (.jobStatus 5 [16, 0], 0x24)] ∧ bytes16 16 = [16, 0] ∧
    (∀ d, (busy.ctx d).state ≠ .free → (busy.ctx d).tag ≠ 16) ∧
    (Instr.fetch 5 [8], (0x40 : Byte)) ∈ [(Instr.laneOpen 5 [8], (0x31 : Byte)), (.laneReset 5 [8], 0x32),
      (.laneStatus 5 [8], 0x33), (.fetch 5 [8], 0x40)] ∧ 8 ≤ (8 : Byte).toNat :=
  ⟨fun _ _ => asking_performs _ _ rfl, by decide +kernel⟩

/-- The six jobs of `busy`, one in each state, by their tags. -/
theorem busy_tags : holdsTag busy 10 0 ∧ holdsTag busy 11 1 ∧ holdsTag busy 12 2 ∧ holdsTag busy 13 3 ∧ holdsTag busy 14 4 ∧
    holdsTag busy 15 5 := by
  unfold holdsTag
  decide +kernel

theorem busy_states : (busy.ctx 0).state = .running ∧ (busy.ctx 1).state = .preempted ∧ (busy.ctx 2).state = .queued ∧
    (busy.ctx 3).state = .suspended ∧ (busy.ctx 4).state = .draining ∧ (busy.ctx 5).state = .aborting := by decide +kernel

theorem witness_JobStatusReportsTheRecord :
    performs (asking busy ⟨5, 0x24, bytes16 10⟩) ⟨5, 0x24, bytes16 10⟩ ∧ holdsTag (asking busy ⟨5, 0x24, bytes16 10⟩) 10 0 :=
  ⟨asking_performs _ _ rfl, asking_holdsTag _ _ _ _ busy_tags.1⟩

theorem witness_SuspendActsByTheJobsState :
    (∀ tag, performs (asking busy ⟨5, 0x21, bytes16 tag⟩) ⟨5, 0x21, bytes16 tag⟩) ∧
    (∀ r, holdsTag (asking busy r) 10 0 ∧ holdsTag (asking busy r) 11 1 ∧ holdsTag (asking busy r) 12 2 ∧
      holdsTag (asking busy r) 13 3) ∧
    (busy.ctx 0).state = .running ∧ (busy.ctx 1).state = .preempted ∧ (busy.ctx 2).state = .queued ∧
    (busy.ctx 3).state = .suspended :=
  ⟨fun _ => asking_performs _ _ rfl, fun r => ⟨asking_holdsTag _ r _ _ busy_tags.1, asking_holdsTag _ r _ _ busy_tags.2.1,
    asking_holdsTag _ r _ _ busy_tags.2.2.1, asking_holdsTag _ r _ _ busy_tags.2.2.2.1⟩, by
    decide +kernel⟩

/-- A running job with a suspension pending. -/
def pendingBusy : State := busy.modCtx 0 fun x => { x with suspendPending := true }

theorem witness_ResumeActsByTheJobsState :
    (∀ s tag, s.heldInReset = false → performs (asking s ⟨5, 0x22, bytes16 tag⟩) ⟨5, 0x22, bytes16 tag⟩) ∧
    (holdsTag busy 13 3 ∧ (busy.ctx 3).state = .suspended ∧ (busy.lane 0).sched.running ≠ none) ∧
    (holdsTag quiet 13 0 ∧ (quiet.ctx 0).state = .suspended ∧ selects (quiet.lane 0).ctl.state = true ∧
      (quiet.lane 0).sched.running = none ∧ (quiet.lane 0).sched.resume = none ∧
      (∀ k : ClassId, (quiet.lane 0).sched.ready[k] = [])) ∧
    (holdsTag pendingBusy 10 0 ∧ (pendingBusy.ctx 0).state = .running ∧ (pendingBusy.ctx 0).suspendPending = true) ∧
    (holdsTag busy 10 0 ∧ (busy.ctx 0).state = .running ∧ (busy.ctx 0).suspendPending = false) :=
  ⟨fun _ _ h => asking_performs _ _ h, by unfold holdsTag; decide +kernel⟩

/-- `busy` with its running job not started, and with every job started. -/
def unstartedBusy : State := busy.modCtx 0 fun x => { x with cut := 0, started := false }
def startedBusy : State := { busy with ctxs := busy.ctxs.map fun x => { x with started := true } }

theorem witness_AbortFreesAnUnstartedJob :
    (∀ s tag, s.heldInReset = false → performs (asking s ⟨5, 0x23, bytes16 tag⟩) ⟨5, 0x23, bytes16 tag⟩) ∧
    (holdsTag busy 12 2 ∧ (busy.ctx 2).started = false ∧ (busy.ctx 2).state = .queued) ∧
    (holdsTag unstartedBusy 10 0 ∧ (unstartedBusy.ctx 0).started = false ∧ (unstartedBusy.ctx 0).state = .running) ∧
    (holdsTag busy 11 1 ∧ (busy.ctx 1).started = false ∧ (busy.ctx 1).state = .preempted) ∧
    (holdsTag busy 13 3 ∧ (busy.ctx 3).started = false ∧ (busy.ctx 3).state = .suspended) :=
  ⟨fun _ _ h => asking_performs _ _ h, by unfold holdsTag; decide +kernel⟩

theorem witness_AbortCancelsAStartedJob :
    (∀ s tag, s.heldInReset = false → performs (asking s ⟨5, 0x23, bytes16 tag⟩) ⟨5, 0x23, bytes16 tag⟩) ∧
    (holdsTag startedBusy 12 2 ∧ (startedBusy.ctx 2).started = true ∧ (startedBusy.ctx 2).state = .queued) ∧
    (holdsTag startedBusy 10 0 ∧ (startedBusy.ctx 0).started = true ∧ (startedBusy.ctx 0).state = .running) ∧
    (holdsTag startedBusy 11 1 ∧ (startedBusy.ctx 1).started = true ∧ (startedBusy.ctx 1).state = .preempted) ∧
    (holdsTag startedBusy 13 3 ∧ (startedBusy.ctx 3).started = true ∧ (startedBusy.ctx 3).state = .suspended) ∧
    (holdsTag startedBusy 15 5 ∧ (startedBusy.ctx 5).state = .aborting) :=
  ⟨fun _ _ h => asking_performs _ _ h, by unfold holdsTag; decide +kernel⟩

/-- `busy` with its running slot empty and the resume point at the BULK job. -/
def freeSlot (cls : ClassId) : State :=
  (busy.modSched 0 fun d => { d with running := none, resume := some 1 }).modCtx 1 fun x => { x with cls := cls }

/-- The NORMAL head outranks a BULK job at the resume point, and not another NORMAL one. -/
theorem witness_SelectionComparesTheCandidates :
    (selects ((freeSlot 3).lane 0).ctl.state = true ∧ ((freeSlot 3).lane 0).sched.running = none ∧
      bestHead ((freeSlot 3).lane 0).sched.ready 2 2 [] ∧ ((freeSlot 3).lane 0).sched.resume = some 1 ∧
      ((freeSlot 3).ctx 2).cls < ((freeSlot 3).ctx 1).cls) ∧
    (bestHead ((freeSlot 2).lane 0).sched.ready 2 2 [] ∧ ((freeSlot 2).lane 0).sched.resume = some 1 ∧
      ¬ ((freeSlot 2).ctx 2).cls < ((freeSlot 2).ctx 1).cls) ∧
    selects (State.reset.lane 0).ctl.state = false ∧ (busy.lane 0).sched.running ≠ none ∧
    ((laneIn .up 8 State.reset).lane 0).sched.resume = none := by
  unfold bestHead
  decide +kernel

/-- The running job at its second segment: behind a segment with BIND, and behind one without; and a BULK job running. -/
def atBoundary (bind : Bool) (cls : ClassId) (suspend : Bool) : State :=
  let s := busy.modCtx 0 fun x => { x with sent := 1, cut := 0, cls := cls, suspendPending := suspend }
  { s with pool := s.pool.set 0 { offset := 0, length := 300, bindFlag := bind } }

theorem witness_BoundaryIsEvaluatedInOrder :
    (∀ bind cls suspend, ((atBoundary bind cls suspend).lane 0).sched.running = some 0) ∧
    (∃ g, (atBoundary true 1 true).segmentAt 0 0 = some g ∧ g.bindFlag = true) ∧
    (∃ g, (atBoundary false 1 true).segmentAt 0 0 = some g ∧ g.bindFlag = false) ∧
    ((atBoundary false 1 true).ctx 0).suspendPending = true ∧ ((atBoundary false 3 false).ctx 0).suspendPending = false ∧
    bestHead ((atBoundary false 3 false).lane 0).sched.ready 2 2 [] ∧
    ((atBoundary false 3 false).ctx 2).cls < ((atBoundary false 3 false).ctx 0).cls ∧
    ¬ ((atBoundary false 2 false).ctx 2).cls < ((atBoundary false 2 false).ctx 0).cls ∧
    (((quiet.modSched 0 fun d => { d with running := some 0 }).lane 0).sched.running = some 0 ∧
      ∀ k : ClassId, ((quiet.modSched 0 fun d => { d with running := some 0 }).lane 0).sched.ready[k] = []) :=
  ⟨by decide +kernel, ⟨{ offset := 0, length := 300, bindFlag := true }, by decide +kernel⟩,
    ⟨{ offset := 0, length := 300, bindFlag := false }, by decide +kernel⟩, by unfold bestHead; decide +kernel⟩

theorem witness_SpliceClosesTheChain : ScheduleLaw busy ∧ (busy.ctx 1).state = .preempted :=
  ⟨busy_scheduleLaw, by decide +kernel⟩

theorem witness_LaneConfigReplacesAllSettings :
    (∀ s : State, s.heldInReset = false → ∀ body, performs (asking s ⟨5, 0x30, body⟩) ⟨5, 0x30, body⟩) ∧
    8 ≤ (8 : Byte).toNat ∧ (7 : Byte).toNat = (7 : LaneId).val ∧ ¬ (1 ≤ (0 : Byte).toNat) ∧
    (1 ≤ (255 : Byte).toNat ∧ (7 : Byte).toNat ≤ 7 ∧ (60 : Byte).toNat ≤ 60 ∧ (512 : Word16).toNat = 512 ∧
      (2 : Byte).toNat ≤ 2 ∧ policyCode .none = 2) ∧
    (State.reset.lane 7).ctl.state = .down ∧ (busy.lane 0).ctl.state = .up :=
  ⟨fun _ h _ => asking_performs _ _ h, by decide +kernel⟩

theorem witness_LaneOpenBeginsSynchronisation :
    (∀ s : State, s.heldInReset = false → ∀ body, performs (asking s ⟨5, 0x31, body⟩) ⟨5, 0x31, body⟩) ∧
    (7 : Byte).toNat = (7 : LaneId).val ∧ (State.reset.lane 7).ctl.state = .down ∧ (busy.lane 0).ctl.state = .up :=
  ⟨fun _ h _ => asking_performs _ _ h, by decide +kernel⟩

theorem witness_LaneResetEndsTheLanesJobs :
    let s := asking busy ⟨5, 0x32, [0]⟩
    (0 : Byte).toNat = (0 : LaneId).val ∧ performs s ⟨5, 0x32, [0]⟩ ∧ ScheduleLaw s ∧ StoreLaw s :=
  ⟨rfl, asking_performs _ _ rfl, asking_scheduleLaw _ _ busy_scheduleLaw, asking_storeLaw _ _ busy_storeLaw⟩

theorem witness_LaneStatusReportsTheLane :
    (0 : Byte).toNat = (0 : LaneId).val ∧ performs (asking busy ⟨5, 0x33, [0]⟩) ⟨5, 0x33, [0]⟩ :=
  ⟨rfl, asking_performs _ _ rfl⟩

/-- Lane 0 UP with some returns held and a last accepted bit. -/
def returning (n : Nat) (bit : Option Bool) : State :=
  (laneIn .up 8 State.reset).modLane 0 fun x => { x with returns := List.replicate n ⟨500, 3, [1]⟩, rcv := ⟨bit, []⟩ }

theorem witness_FetchTakesTheOldestReturn :
    (∀ n, performs (asking (returning n none) ⟨5, 0x40, [0]⟩) ⟨5, 0x40, [0]⟩) ∧ ((returning 0 none).lane 0).returns = [] ∧
    ((returning 32 none).lane 0).returns = ⟨500, 3, [1]⟩ :: List.replicate 31 ⟨500, 3, [1]⟩ :=
  ⟨fun _ => asking_performs _ _ rfl, by decide +kernel⟩

theorem witness_ReplyIsAcceptedOnce :
    (∀ n bit b tag code body, handsOn (returning n bit) 0 (replyBytes b tag code body) (returning n bit)) ∧
    (List.replicate 64 (0 : Byte)).length ≤ 64 ∧ ((returning 32 none).lane 0).ctl.state = .up ∧
    ((returning 0 (some true)).lane 0).rcv.lastBit = some ((1 : Byte).getLsbD 0) ∧
    (((returning 32 (some true)).lane 0).rcv.lastBit ≠ some ((0 : Byte).getLsbD 0) ∧
      32 ≤ ((returning 32 (some true)).lane 0).returns.length) ∧
    (((returning 31 none).lane 0).rcv.lastBit ≠ some ((0 : Byte).getLsbD 0) ∧
      ((returning 31 none).lane 0).returns.length < 32) :=
  ⟨fun _ _ _ _ _ _ => hunting_handsOn _ _ _ rfl rfl, by decide +kernel⟩

theorem witness_StationFrameIsReadBack :
    isStationFrame (replyBytes 1 500 3 (List.replicate 64 0)) ∧ Config.marker ∉ ([0x00] : List Byte) ∧
    (State.reset.lane 0).rcv.rx = [] ∧
    ((State.reset.modRcv 0 fun r => { r with rx := holdBytes ++ [0x7E] }).lane 0).rcv.rx = holdBytes ++ [0x7E] :=
  ⟨.inr (.inr (.inr (.inr (.inr ⟨1, 500, 3, _, by decide +kernel, rfl⟩)))), by decide +kernel⟩

theorem witness_DamagedStationFramesAreDiscarded :
    State.reset.heldInReset = false ∧ (State.reset.lane 0).rcv.rx = [] ∧ Config.marker ∉ ([0x00, 0x11] : List Byte) ∧
    (Config.marker ∉ ([0x01, 0xD1, 0xF1] : List Byte) ∧ 0x01 ∉ ([0x11, 0x12, 0x13, 0x14, 0x15, 0x16] : List Byte)) ∧
    (Config.marker ∉ ([0x16, 0, 1, 0, 0, 65] : List Byte) ∧ 64 < (65 : Byte).toNat) ∧
    (Config.marker ∉ ([0x12, 1, 0, 0] : List Byte) ∧ crcBytes [0x12, 1] ≠ [0, 0]) ∧
    (Config.marker ∉ ([0x16, 1, 0, 0, 3] ++ 64 :: List.replicate 66 0 : List Byte) ∧ (64 : Byte).toNat ≤ 64 ∧
      (List.replicate 66 (0 : Byte)).length = (64 : Byte).toNat + 2 ∧
      crcBytes ([0x16, 1, 0, 0, 3, 64] ++ (List.replicate 66 0).take 64) ≠ (List.replicate 66 0).drop 64) := by decide +kernel

/-- Lane 0 hunting in each of its states, with `busy`'s frames in flight. -/
def laneAt (st : LaneState) : State := busy.modCtl 0 fun c => { c with state := st }

theorem laneAt_state (st : LaneState) : ((laneAt st).lane 0).ctl.state = st := by cases st <;> decide +kernel

theorem laneAt_handsOn (st : LaneState) (frame : List Byte) : handsOn (laneAt st) 0 frame (laneAt st) :=
  hunting_handsOn _ _ _ rfl (by cases st <;> decide +kernel)

theorem witness_IgnoredStationFramesChangeNothing :
    (∀ st frame, handsOn (laneAt st) 0 frame (laneAt st) ∧ ((laneAt st).lane 0).ctl.state = st) ∧
    (0 : Byte).toNat = 0 ∧ 8 < (9 : Byte).toNat ∧
    (∀ e ∈ ((laneAt .up).lane 0).tx.inFlight, e.seq.toNat ≠ (4 : Byte).toNat) ∧
    (List.replicate 64 (0 : Byte)).length ≤ 64 :=
  ⟨fun st frame => ⟨laneAt_handsOn st frame, laneAt_state st⟩, by decide +kernel⟩

theorem witness_HelloCompletesSynchronisation :
    handsOn (laneAt .syncing) 0 (helloBytes 8 1) (laneAt .syncing) ∧ ((laneAt .syncing).lane 0).ctl.state = .syncing ∧
    (8 : Byte).toNat ≤ 8 ∧ ((laneAt .syncing).lane 0).sched.running ≠ none ∧
    (let s := laneIn .syncing 0 State.reset;
      handsOn s 0 (helloBytes 1 1) s ∧ (s.lane 0).ctl.state = .syncing ∧ 1 ≤ (1 : Byte).toNat ∧
      (s.lane 0).sched.running = none) :=
  ⟨laneAt_handsOn _ _, by decide +kernel, by decide, by decide +kernel, hunting_handsOn _ _ _ rfl rfl, by decide +kernel⟩

theorem witness_StationRestartEndsStartedJobs :
    handsOn busy 0 (helloBytes 8 1) busy ∧ (busy.lane 0).ctl.state = .up ∧ 1 ≤ (8 : Byte).toNat ∧ (8 : Byte).toNat ≤ 8 ∧
    ScheduleLaw busy ∧ StoreLaw busy :=
  ⟨hunting_handsOn _ _ _ rfl (by decide +kernel), by decide +kernel, by decide, by decide, busy_scheduleLaw, busy_storeLaw⟩

/-- The frames of `busy`'s in-flight list can be formed. -/
theorem busy_formable : ∀ e ∈ (busy.lane 0).tx.inFlight, formable busy 0 e := by
  have h : ∀ e ∈ (busy.lane 0).tx.inFlight, (match e.what with
      | .data k f _ => match busy.segmentAt e.ctx k with
        | some g => decide (f * (busy.lane 0).ctl.config.payloadSize < g.length ∧ g.offset + g.length ≤ 131072)
        | none => false
      | .cancel => true) = true := by decide +kernel
  intro e he k f flags hw
  have := h e he
  simp only [hw] at this
  split at this
  · next g hg => exact ⟨g, hg, of_decide_eq_true this⟩
  · cases this

/-- `busy` held, with a retransmission deferred to the CANCEL. -/
def deferring : State :=
  (busy.modCtl 0 fun c => { c with state := .held }).modTx 0 fun t => { t with deferred := some 2, ackTimer := none }

theorem witness_HoldAndReadyStopAndReleaseTheLane :
    (∀ st frame, handsOn (laneAt st) 0 frame (laneAt st) ∧ ((laneAt st).lane 0).ctl.state = st) ∧
    (let s := laneIn .held 8 State.reset;
      handsOn s 0 readyBytes s ∧ (s.lane 0).ctl.state = .held ∧ (s.lane 0).tx.inFlight = []) ∧
    ((laneAt .held).lane 0).tx.inFlight ≠ [] ∧ ((laneAt .held).lane 0).tx.deferred = none ∧
    handsOn deferring 0 readyBytes deferring ∧ (deferring.lane 0).ctl.state = .held ∧
    (deferring.lane 0).tx.inFlight = (busy.lane 0).tx.inFlight.take 2 ++ ⟨2, 5, .cancel⟩ ::
      (busy.lane 0).tx.inFlight.drop 3 ∧ (deferring.lane 0).tx.deferred = some 2 ∧
    (∀ y ∈ (busy.lane 0).tx.inFlight.take 2, y.seq ≠ 2) ∧
    (∀ y ∈ (busy.lane 0).tx.inFlight, formable deferring 0 y) :=
  ⟨fun st frame => ⟨laneAt_handsOn st frame, laneAt_state st⟩,
    ⟨hunting_handsOn _ _ _ rfl rfl, by decide +kernel⟩, by decide +kernel, by decide +kernel,
    hunting_handsOn _ _ _ rfl (by decide +kernel), by decide +kernel, by decide +kernel, by decide +kernel,
    by decide +kernel, 
    fun y hy => (formable_congr (by simp [deferring]) (by simp [deferring]) (by simp [deferring])).mpr (busy_formable y hy)⟩

/-- The running job at the last frame of the first segment, inside it, and at its last segment. -/
theorem witness_DataCutSendsTheNextFrame :
    let inside := busy.modCtx 0 fun x => { x with cut := 0 }
    let atEnd := busy.modCtx 0 fun x => { x with sent := 1 }
    (∀ s ∈ [busy, inside, atEnd], s.heldInReset = false ∧ (s.lane 0).ctl.state = .up ∧
      (s.lane 0).tx.inFlight.length < (s.lane 0).ctl.window ∧ (s.lane 0).tx.cancels = [] ∧
      (s.lane 0).sched.running = some 0 ∧ s.segmentAt 0 (s.ctx 0).sent = some { offset := 0, length := 300 } ∧
      (s.ctx 0).cut * (s.lane 0).ctl.config.payloadSize < 300) ∧ 0 + 300 ≤ 131072 ∧
    ((busy.ctx 0).cut * 256 + min 256 (300 - (busy.ctx 0).cut * 256) = 300 ∧ (busy.ctx 0).sent + 1 < (busy.ctx 0).segCount) ∧
    (inside.ctx 0).cut * 256 + min 256 (300 - (inside.ctx 0).cut * 256) ≠ 300 ∧
    ((atEnd.ctx 0).segCount ≤ (atEnd.ctx 0).sent + 1) ∧ (State.reset.lane 0).ctl.state ≠ .up := by
  decide +kernel

/-- `busy` with a CANCEL waiting. -/
def cancelling : State := busy.modTx 0 fun t => { t with cancels := [⟨5, 15⟩] }

theorem witness_CancelCutSendsTheHeadOfTheList :
    cancelling.heldInReset = false ∧ (cancelling.lane 0).ctl.state = .up ∧
    (cancelling.lane 0).tx.inFlight.length < (cancelling.lane 0).ctl.window ∧
    (cancelling.lane 0).tx.cancels = [⟨5, 15⟩] ∧ (busy.lane 0).tx.cancels = [] := by decide +kernel

/-- Lane 0 in a state with frames waiting for the pair. -/
def waiting (st : LaneState) (probes : Nat) (answers : List LaneFrame) (frames : List WaitingFrame) : State :=
  (laneAt st).modPair 0 fun p => { p with probes := probes, answers := answers, frames := frames }

theorem waiting_meets (st : LaneState) (probes : Nat) (answers : List LaneFrame) (frames : List WaitingFrame) :
    let s := waiting st probes answers frames
    s.heldInReset = false ∧ (s.lane 0).ctl.state = st ∧ (s.lane 0).pair.probes = probes ∧
    (s.lane 0).pair.answers = answers ∧ (s.lane 0).pair.frames = frames := by
  refine ⟨rfl, ?_, ?_, ?_, ?_⟩ <;> simp [waiting, laneAt_state]

/-- Every lane state and every content of the pair is met. -/
theorem witness_PairSendsTheNextWaitingFrame :
    (let s := waiting .syncing 1 [] [];
      s.heldInReset = false ∧ (s.lane 0).ctl.state = .syncing ∧ (s.lane 0).pair.probes = 1) ∧
    (let s := waiting .held 0 [.rack true] [⟨.probe, none⟩];
      (s.lane 0).ctl.state = .held ∧ (s.lane 0).pair.answers = [.rack true]) ∧
    (let s := waiting .up 0 [] [⟨.cancel 3 15, some 3⟩];
      (s.lane 0).ctl.state = .up ∧ (s.lane 0).pair.answers = [] ∧ (s.lane 0).pair.frames = [⟨.cancel 3 15, some 3⟩]) ∧
    ((State.reset.lane 0).ctl.state = .down ∧ State.reset.heldInReset = false) :=
  ⟨(have h := waiting_meets .syncing 1 [] []; ⟨h.1, h.2.1, h.2.2.1⟩), ⟨(waiting_meets .held 0 [.rack true] _).2.1,
    (waiting_meets .held 0 [.rack true] _).2.2.2.1⟩, ⟨(waiting_meets .up 0 [] _).2.1, (waiting_meets .up 0 [] _).2.2.2⟩, rfl, rfl⟩

theorem witness_AckRemovesEntriesThroughTheNamedOne :
    (∀ st, handsOn (laneAt st) 0 (ackBytes 1) (laneAt st) ∧ ((laneAt st).lane 0).ctl.state = st ∧
      ((laneAt st).lane 0).tx.inFlight = (busy.lane 0).tx.inFlight.take 1 ++
        ⟨1, 4, .data 0 1 ⟨false, true, true, false⟩⟩ :: (busy.lane 0).tx.inFlight.drop 2) ∧
    (1 : BitVec 4).toNat = (1 : Byte).toNat ∧ ∀ y ∈ (busy.lane 0).tx.inFlight.take 1, y.seq ≠ 1 :=
  ⟨fun st => ⟨laneAt_handsOn st _, laneAt_state st, by cases st <;> decide +kernel⟩, by decide +kernel⟩

/-- A DRAINING job one segment from its end, and a RUNNING job with a marked segment. -/
theorem witness_AckAccountsForEachEntry :
    (⟨false, true, true, false⟩ : DataFlags).last = true ∧
    ((busy.ctx 4).state = .draining ∧ (busy.ctx 4).acked + 1 = (busy.ctx 4).segCount) ∧
    (busy.ctx 5).state = .aborting ∧ ((busy.ctx 0).state ≠ .aborting ∧ (busy.ctx 0).state ≠ .draining) ∧
    (busy.lane 0).ctl.config.policy = .flagged ∧
    (let s := { busy with pool := busy.pool.set 0 { offset := 0, length := 300, notifyFlag := true } };
      s.segmentAt 0 0 = some { offset := 0, length := 300, notifyFlag := true }) := by decide +kernel

/-- `busy`'s lane with a retry count, in a state. -/
def retried (st : LaneState) (n : Nat) : State := (laneAt st).modTx 0 fun t => { t with retry := n }

theorem retried_meets (st : LaneState) (n : Nat) (frame : List Byte) : handsOn (retried st n) 0 frame (retried st n) ∧
    ((retried st n).lane 0).ctl.state = st ∧ ((retried st n).lane 0).tx.retry = n ∧
    ((retried st n).lane 0).tx.inFlight = (busy.lane 0).tx.inFlight ∧
    ((retried st n).lane 0).ctl.config.retryLimit = 3 ∧ ∀ e ∈ (busy.lane 0).tx.inFlight, formable (retried st n) 0 e := by
  refine ⟨hunting_handsOn _ _ _ rfl (by simpa [retried] using (by cases st <;> decide +kernel)), ?_, ?_, ?_, ?_,
    fun e he k f flags hw => ?_⟩
  · simp [retried, laneAt_state]
  · simp [retried]
  · simp [retried, laneAt]
  · simp [retried, laneAt]; decide +kernel
  · exact (formable_congr (by simp [retried, laneAt]) (by simp [retried, laneAt]) (by simp [retried, laneAt])).mpr
      (busy_formable e he) k f flags hw

/-- A retry count below its limit and at it, with frame 2 named, in UP and in HELD. -/
theorem witness_NakRetransmitsOrDefers :
    (∀ st n, handsOn (retried st n) 0 (nakBytes 2) (retried st n) ∧ ((retried st n).lane 0).ctl.state = st ∧
      ((retried st n).lane 0).tx.retry = n ∧ ((retried st n).lane 0).tx.inFlight =
        (busy.lane 0).tx.inFlight.take 2 ++ ⟨2, 5, .cancel⟩ :: (busy.lane 0).tx.inFlight.drop 3 ∧
      ((retried st n).lane 0).ctl.config.retryLimit = 3) ∧
    (2 : BitVec 4).toNat = (2 : Byte).toNat ∧ (∀ y ∈ (busy.lane 0).tx.inFlight.take 2, y.seq ≠ 2) ∧
    (∀ y ∈ (busy.lane 0).tx.inFlight, formable (retried .up 2) 0 y) ∧ 2 + 1 ≤ 3 ∧ 3 < 3 + 1 :=
  ⟨fun st n => have h := retried_meets st n (nakBytes 2)
    ⟨h.1, h.2.1, h.2.2.1, h.2.2.2.1.trans (by decide +kernel), h.2.2.2.2.1⟩, by decide, by decide +kernel,
    (retried_meets .up 2 []).2.2.2.2.2, by decide, by decide⟩

theorem witness_AckTimerExpiryRetransmitsAll :
    (∀ n, (retried .up n).heldInReset = false ∧ ((retried .up n).lane 0).ctl.state = .up ∧
      ((retried .up n).lane 0).tx.retry = n ∧ ((retried .up n).lane 0).ctl.config.retryLimit = 3 ∧
      (∀ y ∈ ((retried .up n).lane 0).tx.inFlight, formable (retried .up n) 0 y)) ∧
    ((retried .up 3).lane 0).tx.ackTimer ≠ none ∧ (State.reset.lane 0).tx.ackTimer = none :=
  ⟨fun n => have h := retried_meets .up n []
    ⟨rfl, h.2.1, h.2.2.1, h.2.2.2.2.1, fun y hy => h.2.2.2.2.2 y (h.2.2.2.1 ▸ hy)⟩, by decide +kernel⟩

/-- A lane whose probe timer runs, and one whose hold timer runs. -/
theorem witness_ProbeAndHoldTimersExpire :
    (∀ n ∈ [15, 16], let s := State.reset.modCtl 0 fun c =>
        { c with state := .syncing, probeTimer := some 10, probeCount := n };
      s.heldInReset = false ∧ (s.lane 0).ctl.state = .syncing ∧ (s.lane 0).ctl.probeTimer ≠ none ∧
      (s.lane 0).ctl.probeCount = n) ∧
    (let s := State.reset.modCtl 0 fun c => { c with state := .held, holdTimer := some 5 };
      s.heldInReset = false ∧ (s.lane 0).ctl.state = .held ∧ (s.lane 0).ctl.holdTimer ≠ none) ∧
    ((State.reset.lane 0).ctl.probeTimer = none ∧ (State.reset.lane 0).ctl.holdTimer = none) := by decide +kernel

/-- A lane in which two jobs are rolled back, one of them DRAINING, and the others are not. -/
theorem witness_FaultEntryRollsTheLaneBack :
    (busy.ctx 0).cut ≠ 0 ∧ ((busy.ctx 4).acked < (busy.ctx 4).sent ∧ (busy.ctx 4).state = .draining) ∧
    ¬ ((busy.ctx 2).acked < (busy.ctx 2).sent ∨ (busy.ctx 2).cut ≠ 0) := by decide +kernel

/-- A Notice Queue of `n` notices, the first `k` of them sent. -/
def notices (n k lost : Nat) : NoticeQueue :=
  ⟨(List.range n).map fun i => ⟨BitVec.ofNat 8 i, .returnReady 0, decide (i < k)⟩, BitVec.ofNat 8 n, k, lost⟩

theorem witness_PostingKeepsOrCountsTheNotice :
    NoticeLaw (notices 63 8 0) ∧ (notices 63 8 0).items.length < 64 ∧
    (NoticeLaw (notices 64 8 65534) ∧ (notices 64 8 65534).items.length = 64 ∧ (notices 64 8 65534).lost < 65535) ∧
    (NoticeLaw (notices 64 0 65535) ∧ (notices 64 0 65535).items.length = 64 ∧ (notices 64 0 65535).lost = 65535) := by
  unfold NoticeLaw
  decide +kernel

theorem witness_NoticeRequestsAckAndRewind :
    let s := { State.reset with notices := notices 64 8 3 }
    NoticeLaw s.notices ∧ (∀ kind body, performs (asking s ⟨5, kind, body⟩) ⟨5, kind, body⟩) ∧
    (∀ x ∈ s.notices.items, x.sent = true → x.seq ≠ (8 : Byte)) ∧
    s.notices.items = s.notices.items.take 7 ++ ⟨7, .returnReady 0, true⟩ :: s.notices.items.drop 8 :=
  ⟨by unfold NoticeLaw; decide +kernel, fun _ _ => asking_performs _ _ rfl, by decide +kernel, by decide +kernel⟩

/-- The outbound transmitter with a reply to send, with a notice to send, busy with each, and with a full window. -/
theorem witness_OutboundTransmitterSendsRepliesFirst :
    let h := State.reset.host
    State.reset.heldInReset = false ∧ h.out = .idle ∧ h.replies = [] ∧
    (State.reset.notices.items = [] ++ ⟨0, .ready .powerOn, false⟩ :: [] ∧ State.reset.notices.sentCount < 8) ∧
    8 ≤ (notices 64 8 0).sentCount ∧
    ({ h with replies := [⟨⟨5, 0x81, [0]⟩, false⟩] }.replies = ⟨⟨5, 0x81, [0]⟩, false⟩ :: []) ∧
    ({ h with out := .reply [0] false }.out = .reply [0] false ∧ { h with out := .notice [0] }.out = .notice [0]) := by
  decide +kernel

theorem witness_PartResetsPostReady :
    State.reset.heldInReset = false ∧ { State.reset.host with out := .reply [0] true }.out = .reply [0] true ∧
    State.reset.host.out = .idle ∧ (inReset.heldInReset = true ∧ inReset.powerOnDue = false) ∧
    ({ inReset with powerOnDue := true }.heldInReset = true ∧ { inReset with powerOnDue := true }.powerOnDue = true) :=
  ⟨rfl, rfl, rfl, ⟨rfl, rfl⟩, rfl, rfl⟩

/-- `busy` about to cut a frame meets every law, and the cut answers a next state. -/
def cutting : State := withPending busy (.dataCut 0)

theorem cutting_laws : (∀ l, LaneLaw (cutting.lane l)) ∧ StoreLaw cutting ∧ TagLaw cutting ∧ ScheduleLaw cutting ∧
    FlowLaw cutting :=
  withPending_laws busy _ busy_laneLaw busy_storeLaw busy_tagLaw busy_scheduleLaw busy_flowLaw

theorem cutting_steps : step cutting = .next (after (.dataCut 0) busy) :=
  withPending_step busy _ (by decide +kernel) (by decide +kernel)

theorem witness_StepKeepsTheBufferLaws : MemoryLaw cutting ∧ NoticeLaw cutting.notices ∧ HostLaw cutting.host ∧
    step cutting = .next (after (.dataCut 0) busy) :=
  ⟨by unfold MemoryLaw; decide +kernel, by unfold NoticeLaw; decide +kernel, by unfold HostLaw; decide +kernel, cutting_steps⟩

theorem witness_StepKeepsTheLaneLaws : (∀ l, LaneLaw (cutting.lane l)) ∧ step cutting = .next (after (.dataCut 0) busy) :=
  ⟨cutting_laws.1, cutting_steps⟩

theorem witness_StepKeepsTheStoreLaws : StoreLaw cutting ∧ TagLaw cutting ∧ step cutting = .next (after (.dataCut 0) busy) :=
  ⟨cutting_laws.2.1, cutting_laws.2.2.1, cutting_steps⟩

theorem witness_StepKeepsTheScheduleLaws : ScheduleLaw cutting ∧ step cutting = .next (after (.dataCut 0) busy) :=
  ⟨cutting_laws.2.2.2.1, cutting_steps⟩

theorem witness_NoStepStopsThePart :
    (∀ l, LaneLaw (cutting.lane l)) ∧ StoreLaw cutting ∧ ScheduleLaw cutting ∧ FlowLaw cutting :=
  ⟨cutting_laws.1, cutting_laws.2.1, cutting_laws.2.2.2⟩

end Sys2Proof.Tests
end

-- ==== Proofs: Events ====
section
/-! PROOFS. Events: what one command does to the jobs and the lanes, said once for all commands. -/

namespace Sys2Proof.Machine

/-- Two states with the same jobs, pool and pins and the same lanes but for the receivers and the transmit pairs; the rest of
the part may differ. -/
structure Alike (s t : State) : Prop where
  ctxs : t.ctxs = s.ctxs
  pool : t.pool = s.pool
  freeList : t.freeList = s.freeList
  pins : t.pins = s.pins
  sched : ∀ l, (t.lane l).sched = (s.lane l).sched
  tx : ∀ l, (t.lane l).tx = (s.lane l).tx
  ctl : ∀ l, (t.lane l).ctl = (s.lane l).ctl
  returns : ∀ l, (t.lane l).returns = (s.lane l).returns

theorem Alike.refl (s : State) : Alike s s :=
  ⟨rfl, rfl, rfl, rfl, fun _ => rfl, fun _ => rfl, fun _ => rfl, fun _ => rfl⟩

/-- The host link, the notices, staging memory, the reset pins and the queue of commands do not count. -/
theorem Alike.of_fields {s t : State} (hc : t.ctxs = s.ctxs) (hp : t.pool = s.pool) (hf : t.freeList = s.freeList)
    (hn : t.pins = s.pins) (hl : t.lanes = s.lanes) : Alike s t :=
  ⟨hc, hp, hf, hn, fun l => by rw [lane_congr hl], fun l => by rw [lane_congr hl], fun l => by rw [lane_congr hl],
    fun l => by rw [lane_congr hl]⟩

theorem Alike.modRcv (s : State) (l : LaneId) (f : Receiver → Receiver) : Alike s (s.modRcv l f) := by
  refine ⟨rfl, rfl, rfl, rfl, fun k => ?_, fun k => ?_, fun k => ?_, fun k => ?_⟩ <;>
    by_cases h : l = k <;> simp [h]

theorem Alike.modPair (s : State) (l : LaneId) (f : TxPair → TxPair) : Alike s (s.modPair l f) := by
  refine ⟨rfl, rfl, rfl, rfl, fun k => ?_, fun k => ?_, fun k => ?_, fun k => ?_⟩ <;>
    by_cases h : l = k <;> simp [h]

/-- What one command does to the jobs and the lanes, by its kind, with the checks it has passed. -/
inductive Event (s : State) : State → Prop
  | quiet : Event s s
  | partReset (cause : ResetCause) (straps : BitVec 2) (keep : Bool) : Event s (s.partReset cause straps keep)
  | submit (c : CtxId) (l : LaneId) (cls : ClassId) (tag : Tag) (ds : List Descriptor) (free : s.lowestFree = some c)
      (named : tag ≠ 0) (fresh : s.findJob tag = none) (some_segment : 1 ≤ ds.length) (valid : firstInvalid ds = none)
      (room : ds.length ≤ s.freeList.length) : Event s ((s.admitJob c l cls tag ds).select l)
  | suspend (c : CtxId) (waits : (s.ctx c).state = .queued ∨ (s.ctx c).state = .preempted) :
      Event s ((s.withdraw c).modCtx c fun x => { x with state := .suspended })
  | setPending (c : CtxId) (b : Bool) (runs : (s.ctx c).state = .running) :
      Event s (s.modCtx c fun x => { x with suspendPending := b })
  | resume (c : CtxId) (suspended : (s.ctx c).state = .suspended) : Event s ((s.joinTail c).select (s.ctx c).lane)
  | abortUnstarted (c : CtxId) (live : (s.ctx c).state ≠ .free) (going : (s.ctx c).state ≠ .aborting)
      (started : (s.ctx c).started = false) : Event s (s.abortUnstarted c)
  | abortStarted (c : CtxId) (live : (s.ctx c).state ≠ .free) (going : (s.ctx c).state ≠ .aborting)
      (started : (s.ctx c).started = true) : Event s (s.abortStarted c)
  | configure (l : LaneId) (cfg : LaneConfig) (closed : (s.lane l).ctl.state = .down ∨ (s.lane l).ctl.state = .fault)
      (ranges : ∃ timeout retries hold payload policy, configField timeout retries hold payload policy = some cfg) :
      Event s (s.modCtl l fun x => { x with config := cfg })
  | openLane (l : LaneId) (closed : (s.lane l).ctl.state = .down ∨ (s.lane l).ctl.state = .fault) : Event s (s.openLane l)
  | resetLane (l : LaneId) : Event s (s.resetLane l)
  | fetch (l : LaneId) (r : Return) (rs : List Return) (oldest : (s.lane l).returns = r :: rs) :
      Event s (s.modLane l fun x => { x with returns := rs })
  | reply (l : LaneId) (bit : Byte) (r : Return) (fits : r.body.length ≤ Config.maxReplyBody) : Event s (s.takeReply l bit r)
  | hello (l : LaneId) (window : Byte) (id : Word16) : Event s (s.takeHello l window id)
  | ack (l : LaneId) (n : Byte) : Event s (s.takeAck l n)
  | nak (l : LaneId) (n : Byte) (t : State) (ok : s.takeNak l n = .ok t) : Event s t
  | hold (l : LaneId) : Event s (s.takeHold l)
  | ready (l : LaneId) (t : State) (ok : s.takeReady l = .ok t) : Event s t
  | probeExpiry (l : LaneId) : Event s (s.probeExpiry l)
  | holdExpiry (l : LaneId) : Event s (s.holdExpiry l)
  | ackExpiry (l : LaneId) (t : State) (ok : s.ackExpiry l = .ok t) : Event s t
  | dataCut (l : LaneId) (t : State) (ok : s.dataCut l = .ok t) : Event s t
  | cancelCut (l : LaneId) : Event s (s.cancelCut l)

/-- A state reached by an event, but for what `Alike` does not count. -/
def Does (s t : State) : Prop := ∃ u, Event s u ∧ Alike u t

theorem Event.does {s t : State} (h : Event s t) : Does s t := ⟨t, h, .refl t⟩

theorem Does.of_alike {s t : State} (h : Alike s t) : Does s t := ⟨s, .quiet, h⟩

theorem Does.refuse (s : State) (st : Status) : Does s (refuse s st).state := .of_alike (.refl s)

/-! ### Requests -/

/-- The tag a search by tag finds is held by the context found (R10). -/
theorem findJob_some {s : State} {tag : Tag} {c : CtxId} (h : s.findJob tag = some c) :
    tag ≠ 0 ∧ (s.ctx c).state ≠ .free ∧ (s.ctx c).tag = tag := by
  unfold State.findJob at h
  split at h
  · cases h
  · next h0 =>
    have hc := List.find?_some h
    simp only [Bool.and_eq_true, bne_iff_ne, beq_iff_eq] at hc
    exact ⟨h0, hc⟩

/-- A search by tag finds nothing exactly when no job holds the tag (R10). -/
theorem findJob_none {s : State} {tag : Tag} :
    s.findJob tag = none ↔ tag = 0 ∨ ∀ c, (s.ctx c).state ≠ .free → (s.ctx c).tag ≠ tag := by
  unfold State.findJob
  by_cases h0 : tag = 0
  · simp [h0]
  · rw [if_neg h0, or_iff_right h0]
    simp [allCtxs]

/-- A request on a job is refused, or acts on a non-FREE context. -/
theorem onJob_does {body : List Byte} {s : State} {act : CtxId → Answer}
    (h : ∀ c, (s.ctx c).state ≠ .free → Does s (act c).state) : Does s (onJob body s act).state := by
  unfold onJob
  split
  · exact .refuse s _
  · split
    · exact .refuse s _
    · next c hc => exact h c (findJob_some hc).2.1

theorem onLane_does {body : List Byte} {s : State} {act : LaneId → Answer} (h : ∀ l, Does s (act l).state) :
    Does s (onLane body s act).state := by
  unfold onLane
  split
  · split
    · exact .refuse s _
    · exact h _
  · exact .refuse s _

/-- As many descriptors as the bytes hold. -/
theorem descriptors_length {n : Nat} {bytes : List Byte} (h : bytes.length = 7 * n) : (descriptors bytes).length = n := by
  induction n generalizing bytes with
  | zero => rw [List.length_eq_zero_iff.mp h]; rfl
  | succ n ih =>
    match bytes, h with
    | _ :: _ :: _ :: _ :: _ :: _ :: _ :: more, h =>
      simp only [descriptors, List.length_cons] at h ⊢
      rw [ih (by omega)]

theorem performSubmit_does (body : List Byte) (s : State) : Does s (performSubmit body s).state := by
  unfold performSubmit
  split
  · next laneByte clsByte t0 t1 count rest =>
    split
    · exact .refuse s _
    · next hlen =>
      split
      · exact .refuse s _
      · next l _ =>
        split
        · next ranges =>
          split
          · exact .refuse s _
          · next fresh =>
            split
            · exact .of_alike (.refl s)
            · next valid =>
              split
              · exact .refuse s _
              · next c free =>
                split
                · exact .refuse s _
                · next room =>
                  have count_eq : (descriptors rest).length = count.toNat := descriptors_length (by simpa using hlen)
                  exact (Event.submit c l _ _ _ free ranges.2.2.2 (by simpa using fresh) (by omega) valid
                    (by omega)).does
        · exact .refuse s _
  · exact .refuse s _

theorem suspendJob_does (s : State) (c : CtxId) : Does s (suspendJob s c).state := by
  unfold suspendJob
  split
  · exact (Event.suspend c (.inl ‹_›)).does
  · exact (Event.suspend c (.inr ‹_›)).does
  · exact (Event.setPending c true ‹_›).does
  all_goals exact .refuse s _

theorem resumeJob_does (s : State) (c : CtxId) : Does s (resumeJob s c).state := by
  unfold resumeJob
  split
  · exact (Event.resume c ‹_›).does
  · split
    · exact (Event.setPending c false ‹_›).does
    · exact .refuse s _
  all_goals exact .refuse s _

theorem abortJob_does (s : State) (c : CtxId) (live : (s.ctx c).state ≠ .free) : Does s (abortJob s c).state := by
  unfold abortJob
  split
  · exact .refuse s _
  · next going =>
    split
    · exact (Event.abortStarted c live going ‹_›).does
    · next started => exact (Event.abortUnstarted c live going (by simpa using started)).does

theorem performLaneConfig_does (body : List Byte) (s : State) : Does s (performLaneConfig body s).state := by
  unfold performLaneConfig
  split
  · split
    · exact .refuse s _
    · next l _ =>
      split
      · exact .refuse s _
      · next cfg ranges =>
        split
        · exact (Event.configure l cfg (.inl ‹_›) ⟨_, _, _, _, _, ranges⟩).does
        · exact (Event.configure l cfg (.inr ‹_›) ⟨_, _, _, _, _, ranges⟩).does
        all_goals exact .refuse s _
  · exact .refuse s _

theorem performLaneOpen_does (body : List Byte) (s : State) : Does s (performLaneOpen body s).state := by
  refine onLane_does fun l => ?_
  split
  · exact (Event.openLane l (.inl ‹_›)).does
  · exact (Event.openLane l (.inr ‹_›)).does
  all_goals exact .refuse s _

theorem performFetch_does (body : List Byte) (s : State) : Does s (performFetch body s).state := by
  refine onLane_does fun l => ?_
  split
  · exact .refuse s _
  · next r rs oldest => exact (Event.fetch l r rs oldest).does

theorem performWrite_does (body : List Byte) (s : State) : Does s (performWrite body s).state := by
  unfold performWrite
  split
  · dsimp only
    split
    · exact .refuse s _
    · split
      · exact .refuse s _
      · split
        · exact .of_alike (.refl s)
        · exact .of_alike (.of_fields rfl rfl rfl rfl rfl)
  · exact .refuse s _

theorem performRead_does (body : List Byte) (s : State) : Does s (performRead body s).state := by
  unfold performRead
  split
  · dsimp only
    split
    · exact .refuse s _
    · split
      · exact .refuse s _
      · exact .of_alike (.refl s)
  · exact .refuse s _

theorem performAckNotices_does (body : List Byte) (s : State) : Does s (performAckNotices body s).state := by
  unfold performAckNotices
  split
  · split
    · exact .refuse s _
    · exact .of_alike (.of_fields rfl rfl rfl rfl rfl)
  · exact .refuse s _

/-- A request whose body must be empty, and which then changes at most what `Alike` does not count. -/
theorem emptyBody_does {body : List Byte} {s : State} {a : Answer} {st : Status} (h : Alike s a.state) :
    Does s (if body = [] then a else refuse s st).state := by
  split
  · exact .of_alike h
  · exact .refuse s _

/-- An event, between states that differ by what `Alike` does not count. -/
def Reaches (s t : State) : Prop := ∃ v, Alike s v ∧ Does v t

theorem Does.reaches {s t : State} (h : Does s t) : Reaches s t := ⟨s, .refl s, h⟩

theorem Alike.reaches {s t : State} (h : Alike s t) : Reaches s t := (Does.of_alike h).reaches

theorem Reaches.of_fields {s t : State} (hc : t.ctxs = s.ctxs) (hp : t.pool = s.pool) (hf : t.freeList = s.freeList)
    (hn : t.pins = s.pins) (hl : t.lanes = s.lanes) : Reaches s t := (Alike.of_fields hc hp hf hn hl).reaches

theorem Alike.trans {s t u : State} (h : Alike s t) (h' : Alike t u) : Alike s u :=
  ⟨h'.ctxs.trans h.ctxs, h'.pool.trans h.pool, h'.freeList.trans h.freeList, h'.pins.trans h.pins,
    fun l => (h'.sched l).trans (h.sched l), fun l => (h'.tx l).trans (h.tx l), fun l => (h'.ctl l).trans (h.ctl l),
    fun l => (h'.returns l).trans (h.returns l)⟩

theorem Does.alike {s t u : State} (h : Does s t) (h' : Alike t u) : Does s u := by
  obtain ⟨v, event, hv⟩ := h
  exact ⟨v, event, hv.trans h'⟩

/-- A request command does what performing the request does, or changes the host link alone. -/
theorem takeRequest_reaches {s t : State} {r : Request} {k : Byte} {perform : State → Answer}
    (h : takeRequest s r k perform = .next t) (hp : ∀ v, Does v (perform v).state) : Reaches s t := by
  rcases takeRequest_next h with ⟨rfl, -⟩ | ⟨-, -, frame, -, rfl⟩ | ⟨-, -, -, a, rfl, rfl⟩
  · exact (Alike.refl _).reaches
  · exact Reaches.of_fields rfl rfl rfl rfl rfl
  · exact ⟨{ s with host := { s.host with holding := markTaken s.host.holding } }, .of_fields rfl rfl rfl rfl rfl,
      (hp _).alike (.of_fields rfl rfl rfl rfl rfl)⟩

/-! ### Frames, timers and resets -/

theorem unlessHeld_reaches {s t : State} {e : Host.Outcome State Fault Refusal} (h : unlessHeld s e = .next t)
    (he : e = .next t → Reaches s t) : Reaches s t := by
  rcases unlessHeld_next.mp h with ⟨-, rfl⟩ | ⟨-, h⟩
  · exact (Alike.refl _).reaches
  · exact he h

theorem onFrame_reaches {s t : State} {l : LaneId} {frame : List Byte} {owner : State → Except Fault State}
    (h : onFrame s l frame owner = .next t) (ho : ∀ v, owner v = .ok t → Event v t) : Reaches s t := by
  rcases onFrame_next h with rfl | ⟨u, hu, ok⟩
  · exact (Alike.refl _).reaches
  · refine ⟨u, ?_, (ho u ok).does⟩
    rcases handOn_some hu with rfl | ⟨rx, rfl⟩
    · exact .refl _
    · exact .modRcv s l _

theorem onFrame_reaches' {s t : State} {l : LaneId} {frame : List Byte} {owner : State → State}
    (h : onFrame s l frame (fun v => .ok (owner v)) = .next t) (ho : ∀ v, Event v (owner v)) : Reaches s t :=
  onFrame_reaches h fun v ok => by cases ok; exact ho v

theorem execResetnLow_alike (s : State) : Alike s { s with
    heldInReset := true
    host := { s.host with out := .idle }
    lanes := Vector.ofFn fun l : LaneId => { s.lane l with pair := { (s.lane l).pair with sending := none } } } := by
  refine ⟨rfl, rfl, rfl, rfl, fun k => ?_, fun k => ?_, fun k => ?_, fun k => ?_⟩ <;> simp [State.lane]

/-- What a command that answers a next state does to the jobs and the lanes is one event. -/
theorem exec_reaches {c : Instr} {s t : State} (h : exec c s = .next t) : Reaches s t := by
  cases c with
  | identify seq body => exact takeRequest_reaches h fun v => emptyBody_does (.refl v)
  | reset seq body => exact takeRequest_reaches h fun v => emptyBody_does (.refl v)
  | write seq body => exact takeRequest_reaches h (performWrite_does body)
  | read seq body => exact takeRequest_reaches h (performRead_does body)
  | pinMap seq body => exact takeRequest_reaches h fun v => emptyBody_does (.refl v)
  | submit seq body => exact takeRequest_reaches h (performSubmit_does body)
  | suspend seq body => exact takeRequest_reaches h fun v => onJob_does fun c _ => suspendJob_does v c
  | resume seq body => exact takeRequest_reaches h fun v => onJob_does fun c _ => resumeJob_does v c
  | abort seq body => exact takeRequest_reaches h fun v => onJob_does fun c live => abortJob_does v c live
  | jobStatus seq body => exact takeRequest_reaches h fun v => onJob_does fun _ _ => .of_alike (.refl v)
  | laneConfig seq body => exact takeRequest_reaches h (performLaneConfig_does body)
  | laneOpen seq body => exact takeRequest_reaches h (performLaneOpen_does body)
  | laneReset seq body => exact takeRequest_reaches h fun v => onLane_does fun l => (Event.resetLane l).does
  | laneStatus seq body => exact takeRequest_reaches h fun v => onLane_does fun _ => .of_alike (.refl v)
  | fetch seq body => exact takeRequest_reaches h (performFetch_does body)
  | ackNotices seq body => exact takeRequest_reaches h (performAckNotices_does body)
  | rewindNotices seq body =>
    exact takeRequest_reaches h fun v => emptyBody_does (.of_fields rfl rfl rfl rfl rfl)
  | unknownKindRequest seq kind body =>
    simp only [exec, execUnknownKindRequest] at h
    split at h
    · cases h; exact (Alike.refl _).reaches
    · exact takeRequest_reaches h fun v => .of_alike (.refl v)
  | hostFrameReceived bytes =>
    exact unlessHeld_reaches h fun e => by cases e; exact Reaches.of_fields rfl rfl rfl rfl rfl
  | gapDiscard => exact unlessHeld_reaches h fun e => by cases e; exact Reaches.of_fields rfl rfl rfl rfl rfl
  | replySend =>
    refine unlessHeld_reaches h fun e => ?_
    split at e <;> cases e <;> exact Reaches.of_fields rfl rfl rfl rfl rfl
  | replySent =>
    refine unlessHeld_reaches h fun e => ?_
    split at e <;> cases e <;> exact Reaches.of_fields rfl rfl rfl rfl rfl
  | noticeSend =>
    refine unlessHeld_reaches h fun e => ?_
    split at e
    · split at e
      · split at e <;> cases e <;> exact Reaches.of_fields rfl rfl rfl rfl rfl
      · cases e; exact (Alike.refl _).reaches
    · cases e; exact (Alike.refl _).reaches
  | hostRequestReset straps =>
    refine unlessHeld_reaches h fun e => ?_
    split at e
    · cases e; exact (Event.partReset _ _ _).does.reaches
    · cases e; exact (Alike.refl _).reaches
  | powerOn straps =>
    simp only [exec, execPowerOn] at h
    split at h
    · cases h; exact Reaches.of_fields rfl rfl rfl rfl rfl
    · cases h; exact (Event.partReset _ _ _).does.reaches
  | resetnLow => exact unlessHeld_reaches h fun e => by cases e; exact (execResetnLow_alike s).reaches
  | resetPin straps =>
    simp only [exec, execResetPin] at h
    split at h
    · cases h; exact (Event.partReset _ _ _).does.reaches
    · cases h; exact (Alike.refl _).reaches
  | hello l window id => exact onFrame_reaches' h fun v => .hello l window id
  | ack l n => exact onFrame_reaches' h fun v => .ack l n
  | nak l n => exact onFrame_reaches h fun v ok => .nak l n t ok
  | hold l => exact onFrame_reaches' h fun v => .hold l
  | ready l => exact onFrame_reaches h fun v ok => .ready l t ok
  | reply l bitByte tag code body =>
    simp only [exec, execReply] at h
    split at h
    · next fits => exact onFrame_reaches' h fun v => .reply l bitByte _ fits
    · cases h; exact (Alike.refl _).reaches
  | laneFrameDiscard l bytes => exact unlessHeld_reaches h fun e => by cases e; exact (Alike.modRcv s l _).reaches
  | probeTimerExpiry l => exact unlessHeld_reaches h fun e => by cases e; exact (Event.probeExpiry l).does.reaches
  | holdTimerExpiry l => exact unlessHeld_reaches h fun e => by cases e; exact (Event.holdExpiry l).does.reaches
  | ackTimerExpiry l => exact unlessHeld_reaches h fun e => (Event.ackExpiry l t (outcomeOf_next.mp e)).does.reaches
  | dataCut l => exact unlessHeld_reaches h fun e => (Event.dataCut l t (outcomeOf_next.mp e)).does.reaches
  | cancelCut l => exact unlessHeld_reaches h fun e => by cases e; exact (Event.cancelCut l).does.reaches
  | laneFrameSend l => exact unlessHeld_reaches h fun e => by cases e; exact (Alike.modPair s l _).reaches
  | noticeFrameEnd =>
    refine unlessHeld_reaches h fun e => ?_
    split at e <;> cases e <;> exact Reaches.of_fields rfl rfl rfl rfl rfl

/-- One step: one event, or nothing when no command waits. -/
theorem step_reaches {s t : State} (h : step s = .next t) : Reaches s t := by
  unfold step at h
  split at h
  · cases h; exact (Alike.refl _).reaches
  · next c rest _ =>
    obtain ⟨v, alike, does⟩ := exec_reaches h
    exact ⟨v, Alike.trans (t := { s with pending := rest }) (.of_fields rfl rfl rfl rfl rfl) alike, does⟩

/-- A relation between states that every event meets, and that does not see what `Alike` does not count, holds of every
step. -/
theorem step_induction {R : State → State → Prop} (alike : ∀ {s t}, Alike s t → R s t)
    (trans : ∀ {s t u}, R s t → R t u → R s u) (event : ∀ {s t}, Event s t → R s t) {s t : State}
    (h : step s = .next t) : R s t := by
  obtain ⟨v, hv, u, hu, ht⟩ := step_reaches h
  exact trans (alike hv) (trans (event hu) (alike ht))

end Sys2Proof.Machine
end

-- ==== Proofs: Store ====
section
/-! PROOFS. Store: what keeps the laws of contexts, segment pool, pins and tags (R2, R5, R10, R31). -/

namespace Sys2Proof.Machine

/-! ### Every context once -/

theorem mem_allCtxs (c : CtxId) : c ∈ allCtxs := List.mem_finRange c

theorem allCtxs_nodup : allCtxs.Nodup := List.nodup_finRange 48

/-- One context taken out of all of them. -/
theorem allCtxs_perm_cons (c : CtxId) : allCtxs.Perm (c :: allCtxs.erase c) := List.perm_cons_erase (mem_allCtxs c)

theorem ne_of_mem_erase {c d : CtxId} (h : d ∈ allCtxs.erase c) : d ≠ c := (allCtxs_nodup.mem_erase_iff.mp h).1

/-- Lists joined over all contexts, when one context's list changes. -/
theorem flatMap_perm_of_eq_off {α : Type} {f g : CtxId → List α} {c : CtxId} (h : ∀ d, d ≠ c → f d = g d) :
    (g c ++ allCtxs.flatMap f).Perm (f c ++ allCtxs.flatMap g) := by
  have rest : (allCtxs.erase c).flatMap f = (allCtxs.erase c).flatMap g :=
    List.flatMap_congr fun d hd => h d (ne_of_mem_erase hd)
  have hf := (allCtxs_perm_cons c).flatMap_right f
  have hg := (allCtxs_perm_cons c).flatMap_right g
  rw [List.flatMap_cons] at hf hg
  calc (g c ++ allCtxs.flatMap f).Perm (g c ++ (f c ++ (allCtxs.erase c).flatMap f)) := hf.append_left _
    _ = (g c ++ (f c ++ (allCtxs.erase c).flatMap g)) := by rw [rest]
    _ |>.Perm (f c ++ (g c ++ (allCtxs.erase c).flatMap g)) := by
      simpa only [List.append_assoc] using List.perm_append_comm.append_right _
    _ |>.Perm (f c ++ allCtxs.flatMap g) := hg.symm.append_left _

/-- The number of contexts that meet a test, when the test changes for one context. -/
theorem filter_length_of_eq_off {p q : CtxId → Bool} {c : CtxId} (h : ∀ d, d ≠ c → p d = q d) :
    (allCtxs.filter p).length + (if q c then 1 else 0) = (allCtxs.filter q).length + (if p c then 1 else 0) := by
  have rest : (allCtxs.erase c).countP p = (allCtxs.erase c).countP q :=
    List.countP_congr fun d hd => by rw [h d (ne_of_mem_erase hd)]
  simp only [← List.countP_eq_length_filter, (allCtxs_perm_cons c).countP_eq, List.countP_cons, rest]
  omega

/-! ### Updates that the laws do not see -/

/-- The same free list, pool and pins, and in every context the same segments and tag; no context has become FREE. -/
structure SameStore (s t : State) : Prop where
  pool : t.pool = s.pool
  freeList : t.freeList = s.freeList
  pins : t.pins = s.pins
  segs : ∀ c, (t.ctx c).segs = (s.ctx c).segs
  segCount : ∀ c, (t.ctx c).segCount = (s.ctx c).segCount
  tag : ∀ c, (t.ctx c).tag = (s.ctx c).tag
  live : ∀ c, (t.ctx c).state = .free → (s.ctx c).state = .free

namespace SameStore

theorem refl (s : State) : SameStore s s :=
  ⟨rfl, rfl, rfl, fun _ => rfl, fun _ => rfl, fun _ => rfl, fun _ h => h⟩

theorem trans {s t u : State} (h : SameStore s t) (h' : SameStore t u) : SameStore s u :=
  ⟨h'.pool.trans h.pool, h'.freeList.trans h.freeList, h'.pins.trans h.pins, fun c => (h'.segs c).trans (h.segs c),
    fun c => (h'.segCount c).trans (h.segCount c), fun c => (h'.tag c).trans (h.tag c), fun c hc => h.live c (h'.live c hc)⟩

theorem of_ctxs {s t : State} (hc : t.ctxs = s.ctxs) (hp : t.pool = s.pool) (hf : t.freeList = s.freeList)
    (hn : t.pins = s.pins) : SameStore s t :=
  ⟨hp, hf, hn, fun c => by rw [ctx_congr hc], fun c => by rw [ctx_congr hc], fun c => by rw [ctx_congr hc],
    fun c h => by rwa [ctx_congr hc] at h⟩

theorem of_alike {s t : State} (h : Alike s t) : SameStore s t := of_ctxs h.ctxs h.pool h.freeList h.pins

theorem modLane (s : State) (l : LaneId) (f : Lane → Lane) : SameStore s (s.modLane l f) := of_ctxs rfl rfl rfl rfl

theorem modSched (s : State) (l : LaneId) (f : Scheduler → Scheduler) : SameStore s (s.modSched l f) := modLane s l _

theorem modTx (s : State) (l : LaneId) (f : Transmitter → Transmitter) : SameStore s (s.modTx l f) := modLane s l _

theorem modCtl (s : State) (l : LaneId) (f : Controller → Controller) : SameStore s (s.modCtl l f) := modLane s l _

theorem modRcv (s : State) (l : LaneId) (f : Receiver → Receiver) : SameStore s (s.modRcv l f) := modLane s l _

theorem modPair (s : State) (l : LaneId) (f : TxPair → TxPair) : SameStore s (s.modPair l f) := modLane s l _

theorem post (s : State) (b : NoticeBody) : SameStore s (s.post b) := of_ctxs rfl rfl rfl rfl

theorem postLaneState (s : State) (l : LaneId) (x : LaneCause) : SameStore s (s.postLaneState l x) := post s _

theorem modCtx (s : State) (c : CtxId) {f : Context → Context} (segs : (f (s.ctx c)).segs = (s.ctx c).segs)
    (segCount : (f (s.ctx c)).segCount = (s.ctx c).segCount) (tag : (f (s.ctx c)).tag = (s.ctx c).tag)
    (live : (f (s.ctx c)).state = .free → (s.ctx c).state = .free) : SameStore s (s.modCtx c f) := by
  have changed : ∀ d, (d = c ∧ (s.modCtx c f).ctx d = f (s.ctx d)) ∨ (s.modCtx c f).ctx d = s.ctx d := fun d => by
    by_cases hd : d = c
    · rw [hd]
      exact .inl ⟨rfl, ctx_modCtx_same s c f⟩
    · exact .inr (ctx_modCtx_ne s f (Ne.symm hd))
  refine ⟨rfl, rfl, rfl, fun d => ?_, fun d => ?_, fun d => ?_, fun d => ?_⟩ <;>
    rcases changed d with ⟨rfl, eq⟩ | eq <;> rw [eq]
  · exact segs
  · exact segCount
  · exact tag
  · exact live
  · exact id

end SameStore

theorem jobSegments_sameStore {s t : State} (h : SameStore s t) (c : CtxId) : t.jobSegments c = s.jobSegments c := by
  simp only [State.jobSegments, h.segs, h.pool]

/-- The first part of the pool's law follows from the second and the partition. -/
theorem poolLaw_of_partition {s : State} (hp : PartitionLaw s)
    (h : ∀ c, (s.ctx c).segCount = (s.ctx c).segs.length ∧ ((s.ctx c).state = .free → (s.ctx c).segs = [])) : PoolLaw s := by
  refine ⟨?_, h⟩
  have len := hp.length_eq
  simpa only [List.length_append, List.length_flatMap, List.length_finRange, h] using len

/-- A FREE context touches no page. -/
theorem live_of_touches {s : State} (hp : PoolLaw s) {c : CtxId} {p : Nat} (h : touches (s.jobSegments c) p = true) :
    (s.ctx c).state ≠ .free := fun free => by
  simp [touches, State.jobSegments, (hp.2 c).2 free] at h

theorem storeLaw_sameStore {s t : State} (same : SameStore s t) (h : StoreLaw s) : StoreLaw t := by
  obtain ⟨pool, partition, segment, pin⟩ := h
  have job := jobSegments_sameStore same
  have partition' : PartitionLaw t := by simpa only [PartitionLaw, same.freeList, same.segs] using partition
  have pool' : PoolLaw t := poolLaw_of_partition partition' fun c => by
    rw [same.segs, same.segCount]
    exact ⟨(pool.2 c).1, fun free => (pool.2 c).2 (same.live c free)⟩
  refine ⟨pool', partition', fun c g hg => segment c g (job c ▸ hg), fun p => ?_⟩
  rw [same.pins, pin p]
  congr 1
  refine List.filter_congr fun c _ => ?_
  cases ht : touches (s.jobSegments c) p.val
  · simp [job, ht]
  · have live := live_of_touches pool ht
    have live' := live_of_touches pool' ((job c).symm ▸ ht)
    rw [job, bne_iff_ne.mpr live, bne_iff_ne.mpr live', ht]

theorem tagLaw_sameStore {s t : State} (same : SameStore s t) (h : TagLaw s) : TagLaw t := by
  refine ⟨fun c free => ?_, fun c d => ?_⟩
  · rw [same.tag]
    exact h.1 c (same.live c free)
  · rw [same.tag, same.tag]
    exact h.2 c d

/-- What a step keeps: the laws of contexts, pool and pins, and the law of tags, each from itself alone. -/
def StoreStep (s t : State) : Prop := (StoreLaw s → StoreLaw t) ∧ (TagLaw s → TagLaw t)

namespace StoreStep

theorem trans {s t u : State} (h : StoreStep s t) (h' : StoreStep t u) : StoreStep s u :=
  ⟨h'.1 ∘ h.1, h'.2 ∘ h.2⟩

theorem of_same {s t : State} (h : SameStore s t) : StoreStep s t := ⟨storeLaw_sameStore h, tagLaw_sameStore h⟩

theorem refl (s : State) : StoreStep s s := of_same (.refl s)

end StoreStep

/-! ### Segments that change hands -/

theorem partition_nodup {s : State} (h : PartitionLaw s) : (s.freeList ++ allCtxs.flatMap fun c => (s.ctx c).segs).Nodup :=
  h.nodup_iff.mpr (List.nodup_finRange 512)

theorem freeList_nodup {s : State} (h : PartitionLaw s) : s.freeList.Nodup := (List.nodup_append.mp (partition_nodup h)).1

/-- No entry is free and held (R5). -/
theorem notMem_segs_of_free {s : State} (h : PartitionLaw s) {c : CtxId} {e : PoolId} (he : e ∈ s.freeList) :
    e ∉ (s.ctx c).segs := fun hc =>
  (List.nodup_append.mp (partition_nodup h)).2.2 e he e (List.mem_flatMap_of_mem (mem_allCtxs c) hc) rfl

/-- No entry is held by two contexts (R5). -/
theorem segs_disjoint {s : State} (h : PartitionLaw s) {c d : CtxId} (hcd : c ≠ d) {e : PoolId} (he : e ∈ (s.ctx c).segs) :
    e ∉ (s.ctx d).segs := by
  have held := (List.nodup_flatMap.mp (List.nodup_append.mp (partition_nodup h)).2.1).2
  have symmetric : Std.Symm (Function.onFun List.Disjoint fun c => (s.ctx c).segs) := ⟨fun _ _ hd => hd.symm⟩
  exact held.forall (mem_allCtxs c) (mem_allCtxs d) hcd he

theorem clearEntries_mem {pool : Vector Segment 512} {es : List PoolId} {e : PoolId} (h : e ∈ es) :
    (clearEntries pool es)[e] = {} := by simp [clearEntries, h]

theorem clearEntries_notMem {pool : Vector Segment 512} {es : List PoolId} {e : PoolId} (h : e ∉ es) :
    (clearEntries pool es)[e] = pool[e] := by simp [clearEntries, h]

theorem unpinPages_get (pins : Vector Nat 64) (gs : List Segment) (p : PageId) :
    (unpinPages pins gs)[p] = pins[p] - if touches gs p.val then 1 else 0 := by simp [unpinPages]

theorem pinPages_get (pins : Vector Nat 64) (gs : List Segment) (p : PageId) :
    (pinPages pins gs)[p] = pins[p] + if touches gs p.val then 1 else 0 := by simp [pinPages]

/-- Segments are read from the context and from the entries it holds. -/
theorem jobSegments_congr {s t : State} {c : CtxId} (hc : (t.ctx c).segs = (s.ctx c).segs)
    (hp : ∀ e ∈ (s.ctx c).segs, t.pool[e] = s.pool[e]) : t.jobSegments c = s.jobSegments c := by
  unfold State.jobSegments
  rw [hc]
  exact List.map_congr_left hp

@[simp] theorem jobSegments_freeCtx_same (s : State) (c : CtxId) (r : EndReason) : (s.freeCtx c r).jobSegments c = [] := by
  simp [State.jobSegments]

/-- Freeing a context leaves the segments of the others (R22). -/
theorem jobSegments_freeCtx_ne {s : State} (h : PartitionLaw s) {c d : CtxId} (r : EndReason) (hcd : c ≠ d) :
    (s.freeCtx c r).jobSegments d = s.jobSegments d := by
  refine jobSegments_congr (by rw [ctx_freeCtx_ne s r hcd]) fun e he => ?_
  rw [freeCtx_pool]
  exact clearEntries_notMem fun hc => segs_disjoint h hcd hc he

theorem partitionLaw_freeCtx {s : State} (h : PartitionLaw s) (c : CtxId) (r : EndReason) : PartitionLaw (s.freeCtx c r) := by
  have moved := flatMap_perm_of_eq_off (f := fun d => ((s.freeCtx c r).ctx d).segs) (g := fun d => (s.ctx d).segs) (c := c)
    fun d hd => by rw [ctx_freeCtx_ne s r hd.symm]
  simp only [ctx_freeCtx_same, List.nil_append] at moved
  unfold PartitionLaw
  rw [freeCtx_freeList, List.append_assoc]
  exact (moved.append_left _).trans h

theorem storeLaw_freeCtx {s : State} (h : StoreLaw s) (c : CtxId) (r : EndReason) : StoreLaw (s.freeCtx c r) := by
  obtain ⟨pool, partition, segment, pin⟩ := h
  have partition' := partitionLaw_freeCtx partition c r
  have job : ∀ d, d ≠ c → (s.freeCtx c r).jobSegments d = s.jobSegments d := fun d hd =>
    jobSegments_freeCtx_ne partition r hd.symm
  refine ⟨poolLaw_of_partition partition' fun d => ?_, partition', fun d g hg => ?_, fun p => ?_⟩
  · by_cases hd : d = c
    · subst hd; simp
    · rw [ctx_freeCtx_ne s r (Ne.symm hd)]; exact pool.2 d
  · by_cases hd : d = c
    · subst hd; simp at hg
    · exact segment d g (job d hd ▸ hg)
  · have count := filter_length_of_eq_off (c := c)
      (p := fun d => (s.ctx d).state != .free && touches (s.jobSegments d) p.val)
      (q := fun d => ((s.freeCtx c r).ctx d).state != .free && touches ((s.freeCtx c r).jobSegments d) p.val)
      fun d hd => by rw [job d hd, ctx_freeCtx_ne s r hd.symm]
    rw [freeCtx_pins, unpinPages_get, pin p]
    simp only [ctx_freeCtx_same, jobSegments_freeCtx_same, bne_self_eq_false, Bool.false_and, Bool.false_eq_true,
      if_false] at count
    cases ht : touches (s.jobSegments c) p.val
    · simp only [ht, Bool.and_false, Bool.false_eq_true, if_false] at count ⊢
      omega
    · have live := live_of_touches pool ht
      simp only [ht, bne_iff_ne.mpr live, Bool.and_true, if_true] at count ⊢
      omega

theorem tagLaw_freeCtx {s : State} (h : TagLaw s) (c : CtxId) (r : EndReason) : TagLaw (s.freeCtx c r) := by
  have tag : ∀ d, ((s.freeCtx c r).ctx d).tag = if d = c then 0 else (s.ctx d).tag := fun d => by
    split
    · next hd => subst hd; simp
    · next hd => rw [ctx_freeCtx_ne s r (Ne.symm hd)]
  refine ⟨fun d free => ?_, fun d d' live same => ?_⟩
  · rw [tag]
    split
    · rfl
    · next hd => exact h.1 d (by rwa [ctx_freeCtx_ne s r (Ne.symm hd)] at free)
  · rw [tag] at live same
    rw [tag] at same
    split at live
    · exact absurd rfl live
    · next hd =>
      rw [if_neg hd] at same
      split at same
      · exact absurd same live
      · exact h.2 d d' live same

theorem StoreStep.freeCtx (s : State) (c : CtxId) (r : EndReason) : StoreStep s (s.freeCtx c r) :=
  ⟨fun h => storeLaw_freeCtx h c r, fun h => tagLaw_freeCtx h c r⟩

/-! ### Admission -/

/-- The entry a descriptor fills, linked to the next one (R6). -/
def entryOf (d : Descriptor) (link : Option PoolId) : Segment :=
  { offset := d.offset, length := d.length, notifyFlag := d.flags.getLsbD 0, bindFlag := d.flags.getLsbD 1, link := link }

theorem vector_get_set {α : Type} {n : Nat} (v : Vector α n) (i j : Fin n) (x : α) :
    (v.set i x)[j] = if i = j then x else v[j] := by
  simp [Vector.getElem_set, Fin.ext_iff]

theorem fillEntries_notMem {pool : Vector Segment 512} {es : List PoolId} {ds : List Descriptor} {e : PoolId} (h : e ∉ es) :
    (fillEntries pool es ds)[e] = pool[e] := by
  induction es generalizing ds with
  | nil => rfl
  | cons x xs ih =>
    cases ds with
    | nil => rfl
    | cons d ds =>
      rw [List.mem_cons, not_or] at h
      rw [fillEntries, vector_get_set, if_neg (Ne.symm h.1), ih h.2]

/-- Each entry holds its descriptor and links to the job's next entry (R6). -/
theorem fillEntries_get {pool : Vector Segment 512} {es : List PoolId} {ds : List Descriptor} (distinct : es.Nodup)
    (len : es.length = ds.length) (i : Nat) (h : i < es.length) (h' : i < ds.length) :
    (fillEntries pool es ds)[es[i]] = entryOf ds[i] (if i + 1 < ds.length then es[i + 1]? else none) := by
  induction es generalizing ds i with
  | nil => cases h
  | cons x xs ih =>
    cases ds with
    | nil => cases h'
    | cons d ds =>
      rw [List.nodup_cons] at distinct
      simp only [List.length_cons, Nat.add_right_cancel_iff] at len
      rw [fillEntries, vector_get_set]
      cases i with
      | zero => cases ds <;> simp [entryOf, List.head?_eq_getElem?]
      | succ i =>
        have hi : i < xs.length := by simpa using h
        have ne : x ≠ xs[i] := fun e => distinct.1 (e ▸ List.getElem_mem hi)
        simp only [List.getElem_cons_succ, if_neg ne]
        rw [ih distinct.2 len i hi (by omega)]
        simp

section
variable (s : State) (c : CtxId) (l : LaneId) (cls : ClassId) (tag : Tag) (ds : List Descriptor)

/-- The record of a job just admitted (R19). -/
def admitted : Context :=
  { state := .queued, tag := tag, lane := l, cls := cls, segCount := ds.length, segs := s.freeList.take ds.length }

@[simp] theorem ctx_joinTail_same : (s.joinTail c).ctx c = { s.ctx c with state := .queued } := by simp [State.joinTail]

@[simp] theorem ctx_joinTail_ne {d : CtxId} (h : c ≠ d) : (s.joinTail c).ctx d = s.ctx d := by simp [State.joinTail, h]

/-- Admission ends with the job joining the tail of its queue (R19). -/
theorem admitJob_joins : ∃ u : State, s.admitJob c l cls tag ds = u.joinTail c ∧
    u.ctxs = (s.modCtx c fun _ => { admitted s l cls tag ds with state := .free }).ctxs ∧ u.lanes = s.lanes ∧
    u.pins = pinPages s.pins (u.jobSegments c) :=
  ⟨{ s with
      freeList := s.freeList.drop ds.length
      pool := fillEntries s.pool (s.freeList.take ds.length) ds
      ctxs := (s.modCtx c fun _ => { admitted s l cls tag ds with state := .free }).ctxs
      pins := pinPages s.pins ((s.freeList.take ds.length).map fun e => (fillEntries s.pool (s.freeList.take ds.length) ds)[e]) },
    by
      unfold State.admitJob
      simp only [State.modCtx, State.jobSegments, State.ctx, Fin.getElem_fin, Vector.getElem_set_self]
      rfl, rfl, rfl, by simp [State.jobSegments, State.ctx, State.modCtx, admitted]⟩

@[simp] theorem ctx_admitJob_same : (s.admitJob c l cls tag ds).ctx c = admitted s l cls tag ds := by
  obtain ⟨u, eq, ctxs, -⟩ := admitJob_joins s c l cls tag ds
  rw [eq, ctx_joinTail_same, ctx_congr ctxs, ctx_modCtx_same]
  rfl

@[simp] theorem ctx_admitJob_ne {d : CtxId} (h : c ≠ d) : (s.admitJob c l cls tag ds).ctx d = s.ctx d := by
  obtain ⟨u, eq, ctxs, -⟩ := admitJob_joins s c l cls tag ds
  rw [eq, ctx_joinTail_ne _ _ h, ctx_congr ctxs, ctx_modCtx_ne _ _ h]

@[simp] theorem admitJob_freeList : (s.admitJob c l cls tag ds).freeList = s.freeList.drop ds.length := rfl

@[simp] theorem admitJob_pool :
    (s.admitJob c l cls tag ds).pool = fillEntries s.pool (s.freeList.take ds.length) ds := rfl

@[simp] theorem admitJob_pins :
    (s.admitJob c l cls tag ds).pins = pinPages s.pins ((s.admitJob c l cls tag ds).jobSegments c) := by
  obtain ⟨u, eq, -, -, pins⟩ := admitJob_joins s c l cls tag ds
  have segs : (s.admitJob c l cls tag ds).jobSegments c = u.jobSegments c := by
    rw [eq]
    simp [State.jobSegments, State.joinTail]
  rw [segs, eq]
  exact pins

end

section
variable {s : State} {c : CtxId} {l : LaneId} {cls : ClassId} {tag : Tag} {ds : List Descriptor}

/-- The segments of a job just admitted are its descriptors (R19). -/
theorem jobSegments_admitJob_same (distinct : s.freeList.Nodup) (room : ds.length ≤ s.freeList.length) :
    ∃ links : List (Option PoolId), links.length = ds.length ∧
      (s.admitJob c l cls tag ds).jobSegments c = List.zipWith entryOf ds links := by
  have len : (s.freeList.take ds.length).length = ds.length := by simpa using room
  refine ⟨(List.range ds.length).map fun i =>
    if i + 1 < ds.length then (s.freeList.take ds.length)[i + 1]? else none, by simp, ?_⟩
  refine List.ext_getElem (by simp [State.jobSegments, admitted, room]) fun i h h' => ?_
  have hi : i < ds.length := by simp only [List.length_zipWith] at h'; omega
  simp only [State.jobSegments, ctx_admitJob_same, admitJob_pool, admitted, List.getElem_map, List.getElem_zipWith,
    List.getElem_range]
  exact fillEntries_get (distinct.sublist (List.take_sublist _ _)) len i (by omega) hi

/-- Admission leaves the segments of the other jobs. -/
theorem jobSegments_admitJob_ne (partition : PartitionLaw s) {d : CtxId} (h : c ≠ d) :
    (s.admitJob c l cls tag ds).jobSegments d = s.jobSegments d := by
  refine jobSegments_congr (by rw [ctx_admitJob_ne _ _ _ _ _ _ h]) fun e he => ?_
  rw [admitJob_pool]
  exact fillEntries_notMem fun hf => notMem_segs_of_free partition (List.mem_of_mem_take hf) he

/-- Every descriptor of a list without a first invalid one is valid (R2). -/
theorem validDescriptor_of_firstInvalid (h : firstInvalid ds = none) : ∀ d ∈ ds, validDescriptor d = true := by
  induction ds with
  | nil => simp
  | cons d ds ih =>
    unfold firstInvalid at h
    split at h
    · next hd => simpa [hd] using ih (by simpa using h)
    · cases h

theorem lowestFree_some (h : s.lowestFree = some c) : (s.ctx c).state = .free := by
  simpa using List.find?_some h

theorem storeLaw_admitJob (free : (s.ctx c).state = .free) (valid : firstInvalid ds = none)
    (room : ds.length ≤ s.freeList.length) (h : StoreLaw s) : StoreLaw (s.admitJob c l cls tag ds) := by
  obtain ⟨pool, partition, segment, pin⟩ := h
  have others : ∀ d, d ≠ c → (s.admitJob c l cls tag ds).ctx d = s.ctx d := fun d hd => ctx_admitJob_ne _ _ _ _ _ _ hd.symm
  have job : ∀ d, d ≠ c → (s.admitJob c l cls tag ds).jobSegments d = s.jobSegments d := fun d hd =>
    jobSegments_admitJob_ne partition hd.symm
  have partition' : PartitionLaw (s.admitJob c l cls tag ds) := by
    have moved := flatMap_perm_of_eq_off (f := fun d => ((s.admitJob c l cls tag ds).ctx d).segs)
      (g := fun d => (s.ctx d).segs) (c := c) fun d hd => by rw [others d hd]
    simp only [ctx_admitJob_same, admitted, (pool.2 c).2 free, List.nil_append] at moved
    have split : s.freeList = s.freeList.take ds.length ++ s.freeList.drop ds.length := (List.take_append_drop _ _).symm
    unfold PartitionLaw
    rw [admitJob_freeList]
    refine ((moved.append_left _).trans ?_).trans partition
    rw [← List.append_assoc]
    conv_rhs => rw [split]
    exact List.perm_append_comm.append_right _
  refine ⟨poolLaw_of_partition partition' fun d => ?_, partition', fun d g hg => ?_, fun p => ?_⟩
  · by_cases hd : d = c
    · subst hd; simp [admitted, room]
    · rw [others d hd]; exact pool.2 d
  · by_cases hd : d = c
    · subst hd
      obtain ⟨links, len, eq⟩ := jobSegments_admitJob_same (c := d) (l := l) (cls := cls) (tag := tag)
        (freeList_nodup partition) room
      rw [eq] at hg
      obtain ⟨i, hi, rfl⟩ := List.getElem_of_mem hg
      have hv := validDescriptor_of_firstInvalid valid _ (List.getElem_mem (n := i) (by simp only [List.length_zipWith] at hi; omega))
      simp only [validDescriptor, Bool.and_eq_true, decide_eq_true_eq] at hv
      simpa [entryOf, and_assoc] using hv.1
    · exact segment d g (job d hd ▸ hg)
  · have count := filter_length_of_eq_off (c := c)
      (p := fun d => (s.ctx d).state != .free && touches (s.jobSegments d) p.val)
      (q := fun d => ((s.admitJob c l cls tag ds).ctx d).state != .free &&
        touches ((s.admitJob c l cls tag ds).jobSegments d) p.val)
      fun d hd => by rw [job d hd, others d hd]
    have live : ((s.admitJob c l cls tag ds).ctx c).state != .free := by simp [admitted]
    rw [admitJob_pins, pinPages_get, pin p]
    simp only [free, live, bne_self_eq_false, Bool.false_and, Bool.false_eq_true, if_false, Bool.true_and] at count
    omega

theorem tagLaw_admitJob (free : (s.ctx c).state = .free) (fresh : s.findJob tag = none) (named : tag ≠ 0) (h : TagLaw s) :
    TagLaw (s.admitJob c l cls tag ds) := by
  have others : ∀ d, d ≠ c → (s.admitJob c l cls tag ds).ctx d = s.ctx d := fun d hd => ctx_admitJob_ne _ _ _ _ _ _ hd.symm
  have unheld : ∀ d, (s.ctx d).tag ≠ tag := fun d hd => by
    by_cases hf : (s.ctx d).state = .free
    · exact named (hd ▸ h.1 d hf)
    · exact (findJob_none.mp fresh).resolve_left named d hf hd
  refine ⟨fun d hf => ?_, fun d e live same => ?_⟩
  · by_cases hd : d = c
    · subst hd; simp [admitted] at hf
    · rw [others d hd] at hf ⊢; exact h.1 d hf
  · by_cases hd : d = c <;> by_cases he : e = c
    · rw [hd, he]
    · subst hd
      rw [others e he] at same
      exact absurd (by simpa [admitted] using same.symm) (unheld e)
    · subst he
      rw [others d hd] at same
      exact absurd (by simpa [admitted] using same) (unheld d)
    · rw [others d hd] at live same
      rw [others e he] at same
      exact h.2 d e live same

end

theorem StoreStep.admitJob {s : State} {c : CtxId} (l : LaneId) (cls : ClassId) {tag : Tag} {ds : List Descriptor}
    (free : s.lowestFree = some c) (named : tag ≠ 0) (fresh : s.findJob tag = none) (valid : firstInvalid ds = none)
    (room : ds.length ≤ s.freeList.length) : StoreStep s (s.admitJob c l cls tag ds) :=
  ⟨storeLaw_admitJob (lowestFree_some free) valid room, tagLaw_admitJob (lowestFree_some free) fresh named⟩

/-! ### Scheduling leaves the store -/

namespace SameStore

theorem takeHead (s : State) (l : LaneId) (k : ClassId) (c : CtxId) : SameStore s (s.takeHead l k c) := by
  unfold State.takeHead
  exact (modSched s l _).trans (modCtx _ c rfl rfl rfl (by simp))

theorem takeResume (s : State) (l : LaneId) (r : CtxId) : SameStore s (s.takeResume l r) := by
  unfold State.takeResume
  exact (modSched s l _).trans (modCtx _ r rfl rfl rfl (by simp))

theorem select (s : State) (l : LaneId) : SameStore s (s.select l) := by
  rcases select_cases s l with ⟨eq, -⟩ | ⟨-, -, ⟨k, c, -, eq, -⟩ | ⟨r, -, eq, -⟩⟩ <;> rw [eq]
  · exact refl s
  · exact takeHead s l k c
  · exact takeResume s l r

theorem joinTail (s : State) (c : CtxId) : SameStore s (s.joinTail c) := by
  unfold State.joinTail
  exact (modSched s _ _).trans (modCtx _ c rfl rfl rfl (by simp))

theorem vacate (s : State) (l : LaneId) (c : CtxId) : SameStore s (s.vacate l c) := by
  unfold State.vacate
  exact (modSched s l _).trans (modCtx _ c rfl rfl rfl id)

theorem splice (s : State) (l : LaneId) (x : CtxId) : SameStore s (s.splice l x) := by
  unfold State.splice
  refine SameStore.trans ?_ (modCtx _ x rfl rfl rfl id)
  split
  · exact modSched s l _
  · split
    · exact modCtx s _ rfl rfl rfl id
    · exact refl s

theorem withdraw (s : State) (c : CtxId) : SameStore s (s.withdraw c) := by
  rcases withdraw_cases s c with ⟨-, eq⟩ | ⟨-, eq⟩ | ⟨-, eq⟩ | eq <;> rw [eq]
  · unfold State.unqueue; exact modSched s _ _
  · exact vacate s _ c
  · exact splice s _ c
  · exact refl s

theorem suspendAtBoundary (s : State) (l : LaneId) (c : CtxId) : SameStore s (s.suspendAtBoundary l c) := by
  unfold State.suspendAtBoundary
  exact (vacate s l c).trans ((modCtx _ c rfl rfl rfl (by simp)).trans ((post _ _).trans (select _ l)))

theorem preempt (s : State) (l : LaneId) (c : CtxId) (k : ClassId) (h : CtxId) : SameStore s (s.preempt l c k h) := by
  unfold State.preempt
  exact (modCtx s c rfl rfl rfl (by simp)).trans ((modSched _ l _).trans (modCtx _ h rfl rfl rfl (by simp)))

theorem evalBoundary (s : State) (l : LaneId) : SameStore s (s.evalBoundary l) := by
  rcases evalBoundary_cases s l with eq | ⟨c, -, -, ⟨-, eq⟩ | ⟨-, k, h, -, -, eq⟩⟩ <;> rw [eq]
  · exact refl s
  · exact suspendAtBoundary s l c
  · exact preempt s l c k h

theorem drain (s : State) (l : LaneId) (c : CtxId) : SameStore s (s.drain l c) := by
  unfold State.drain
  exact (modCtx s c rfl rfl rfl (by simp)).trans ((vacate _ l c).trans (select _ l))

theorem selectIf (s : State) (was : JobState) (l : LaneId) : SameStore s (s.selectIf was l) := by
  unfold State.selectIf
  split
  · exact select s l
  · exact refl s

/-! ### So do the lane's own operations -/

theorem advance (s : State) (l : LaneId) (c : CtxId) (last : Bool) : SameStore s (s.advance l c last) := by
  unfold State.advance
  refine SameStore.trans (modCtx s c (f := fun x => { x with started := true }) rfl rfl rfl id) ?_
  dsimp only
  split
  · refine SameStore.trans (modCtx _ c (f := fun x => { x with cut := 0, sent := x.sent + 1 }) rfl rfl rfl id) ?_
    split
    · exact evalBoundary _ l
    · exact drain _ l c
  · exact modCtx _ c rfl rfl rfl id

theorem launch (s : State) (l : LaneId) (c : CtxId) (what : SentFrame) (frame : LaneFrame) :
    SameStore s (s.launch l c what frame) := by
  unfold State.launch
  exact (modTx s l _).trans (modPair _ l _)

theorem cutData {s t : State} {l : LaneId} {c : CtxId} (h : s.cutData l c = .ok t) : SameStore s t := by
  unfold State.cutData at h
  dsimp only at h
  split at h
  · cases h
  · split at h
    · cases h
    · cases h
      exact (launch s l c _ _).trans (advance _ l c _)

theorem dataCut {s t : State} {l : LaneId} (h : s.dataCut l = .ok t) : SameStore s t := by
  unfold State.dataCut at h
  split at h
  · split at h
    · exact cutData h
    · cases h; exact refl s
  · cases h; exact refl s

theorem cancelCut (s : State) (l : LaneId) : SameStore s (s.cancelCut l) := by
  unfold State.cancelCut
  split
  · split
    · exact (modTx s l _).trans (launch _ l _ _ _)
    · exact refl s
  · exact refl s

theorem retransmit {s t : State} {l : LaneId} {es : List InFlight} (h : s.retransmit l es = .ok t) : SameStore s t := by
  obtain ⟨fs, -, rfl⟩ := retransmit_ok h
  exact (modPair s l _).trans (modTx _ l _)

theorem rollback (s : State) (l : LaneId) : SameStore s (s.rollback l) := by
  unfold State.rollback
  refine SameStore.trans ?_ (modSched _ l _)
  refine ⟨rfl, rfl, rfl, fun c => ?_, fun c => ?_, fun c => ?_, fun c => ?_⟩ <;>
    simp only [State.ctx, Fin.getElem_fin, Vector.getElem_ofFn] <;> split <;> try split
  all_goals simp [rolledBack]

theorem enterFault (s : State) (l : LaneId) (why : FaultCause) (cause : LaneCause) :
    SameStore s (s.enterFault l why cause) := by
  unfold State.enterFault
  exact (modCtl s l _).trans ((postLaneState _ l _).trans ((modPair _ l _).trans ((rollback _ l).trans (modTx _ l _))))

theorem retryOr {s t : State} {l : LaneId} {again : State → Except Fault State} (h : s.retryOr l again = .ok t)
    (ha : ∀ u, again u = .ok t → SameStore u t) : SameStore s t := by
  rcases retryOr_ok h with ⟨-, rfl⟩ | ⟨-, ok⟩
  · exact (modTx s l _).trans (enterFault _ l _ _)
  · exact (modTx s l _).trans (ha _ ok)

theorem startAckTimer (s : State) (l : LaneId) : SameStore s (s.startAckTimer l) := by
  unfold State.startAckTimer; exact modTx s l _

/-- A retransmission that restarts the ack timer. -/
theorem retransmitTimed {s t : State} {l : LaneId} {es : List InFlight}
    (h : (match s.retransmit l es with
      | .error e => .error e
      | .ok u => .ok (u.startAckTimer l)) = Except.ok t) : SameStore s t := by
  split at h
  · cases h
  · next ok => cases h; exact (retransmit ok).trans (startAckTimer _ l)

theorem takeNak {s t : State} {l : LaneId} {n : Byte} (h : s.takeNak l n = .ok t) : SameStore s t := by
  unfold State.takeNak at h
  split at h
  · split at h
    · exact retryOr h fun u ok => retransmitTimed ok
    · exact retryOr h fun u ok => by cases ok; exact modTx u l _
    all_goals cases h; exact refl s
  · cases h; exact refl s

theorem ackExpiry {s t : State} {l : LaneId} (h : s.ackExpiry l = .ok t) : SameStore s t := by
  unfold State.ackExpiry at h
  split at h
  · exact retryOr h fun u ok => retransmitTimed ok
  · cases h; exact refl s

theorem takeReady {s t : State} {l : LaneId} (h : s.takeReady l = .ok t) : SameStore s t := by
  unfold State.takeReady at h
  split at h
  · have opened := fun f x => (modCtl s l f).trans (postLaneState _ l x)
    have timed := fun f x => (opened f x).trans (startAckTimer _ l)
    dsimp only at h
    split at h
    · cases h; exact opened _ _
    · split at h
      · cases h; exact timed _ _
      · split at h
        · cases h
        · next ok =>
          cases h
          exact (timed _ _).trans ((retransmit ok).trans (modTx _ l _))
  all_goals cases h; exact refl s

theorem synchronise (s : State) (l : LaneId) (window : Nat) (id : Word16) : SameStore s (s.synchronise l window id) := by
  unfold State.synchronise
  have opened := fun f g h k x => (modCtl s l f).trans ((modPair _ l g).trans ((modTx _ l h).trans
    ((modRcv _ l k).trans (postLaneState _ l x))))
  dsimp only
  split
  · exact (opened _ _ _ _ _).trans (evalBoundary _ l)
  · exact (opened _ _ _ _ _).trans (select _ l)

theorem takeHold (s : State) (l : LaneId) : SameStore s (s.takeHold l) := by
  unfold State.takeHold
  split
  · exact of_ctxs rfl rfl rfl rfl
  all_goals exact refl s

theorem takeReply (s : State) (l : LaneId) (bit : Byte) (r : Return) : SameStore s (s.takeReply l bit r) := by
  have stored : SameStore s (s.storeReply l (bit.getLsbD 0) r) := by
    unfold State.storeReply
    dsimp only
    split
    · exact modPair s l _
    · split
      · split <;> exact of_ctxs rfl rfl rfl rfl
      · exact modPair s l _
  unfold State.takeReply
  split
  · exact stored
  · exact stored
  all_goals exact refl s

theorem probeExpiry (s : State) (l : LaneId) : SameStore s (s.probeExpiry l) := by
  unfold State.probeExpiry
  split
  · split
    · exact (modPair s l _).trans (modCtl _ l _)
    · exact enterFault s l _ _
  · exact refl s

theorem holdExpiry (s : State) (l : LaneId) : SameStore s (s.holdExpiry l) := by
  unfold State.holdExpiry
  split
  · exact enterFault s l _ _
  · exact refl s

end SameStore

/-! ### The part after reset -/

@[simp] theorem reset_ctx (c : CtxId) : State.reset.ctx c = {} := by simp [State.reset, State.ctx]

@[simp] theorem reset_lane (l : LaneId) : State.reset.lane l = Lane.initial := by simp [State.reset, State.lane]

theorem reset_freeList : State.reset.freeList = List.finRange 512 := by simp only [State.reset]

/-- A part reset leaves the store as after power-on (R177). -/
theorem SameStore.partReset (s : State) (cause : ResetCause) (straps : BitVec 2) (keep : Bool) :
    SameStore State.reset (s.partReset cause straps keep) := by
  unfold State.partReset
  exact of_ctxs rfl rfl (by dsimp only) rfl

theorem reset_storeLaw : StoreLaw State.reset := by
  have partition : PartitionLaw State.reset := by
    have none_held : (allCtxs.flatMap fun c => (State.reset.ctx c).segs) = [] := by simp
    unfold PartitionLaw
    rw [none_held, List.append_nil, reset_freeList]
  refine ⟨poolLaw_of_partition partition (by simp), partition, ?_, fun p => ?_⟩
  · simp [SegmentLaw, State.jobSegments]
  · simp [State.reset, State.ctx]

theorem reset_tagLaw : TagLaw State.reset := by simp [TagLaw]

/-! ### What returns segments -/

/-- A station restart before any job ends: the lane-level values (R137). -/
def State.restarting (s : State) (l : LaneId) (window : Nat) (id : Word16) : State :=
  (((s.modCtl l fun c => { c with window := window, stationId := id, holdTimer := none }).modPair l fun p =>
    { p with answers := [], frames := [] }).modTx l fun t =>
      { t with inFlight := [], cancels := [], ackTimer := none, deferred := none, retry := 0, nextSeq := 0 }).modRcv l
        fun r => { r with lastBit := none }

/-- A station restart before the selection that ends it (R138, R139). -/
def State.restarted (s : State) (l : LaneId) (window : Nat) (id : Word16) : State :=
  (((s.restarting l window id).endJobs l (fun x => x.started) .stationRestart).modCtl l fun c =>
    { c with state := .up }).postLaneState l .stationRestart

theorem stationRestart_eq (s : State) (l : LaneId) (window : Nat) (id : Word16) :
    s.stationRestart l window id = (s.restarted l window id).select l := rfl

/-- LANE_RESET before any job ends: timers, pair and state (R101). -/
def State.stopping (s : State) (l : LaneId) : State :=
  ((s.modCtl l fun c => { c with probeTimer := none, holdTimer := none, state := .down }).modTx l fun t =>
    { t with ackTimer := none }).modPair l fun _ => TxPair.idle

/-- LANE_RESET's last values, after the jobs have ended (R101). -/
def State.stopped (s : State) (l : LaneId) : State :=
  ((s.modTx l fun _ => Transmitter.initial).modCtl l fun c => { c with window := 0, stationId := 0, probeCount := 0 }).modRcv
    l fun _ => Receiver.initial

theorem resetLane_eq (s : State) (l : LaneId) : s.resetLane l =
    (((s.stopping l).endJobs l (fun _ => true) .laneReset).stopped l).postLaneState l .laneReset := rfl

namespace SameStore

theorem restarting (s : State) (l : LaneId) (window : Nat) (id : Word16) : SameStore s (s.restarting l window id) :=
  of_ctxs rfl rfl rfl rfl

theorem stopping (s : State) (l : LaneId) : SameStore s (s.stopping l) := of_ctxs rfl rfl rfl rfl

theorem stopped (s : State) (l : LaneId) : SameStore s (s.stopped l) := of_ctxs rfl rfl rfl rfl

end SameStore

/-! ### The accounting of one entry, by what it records (R116) -/

/-- One segment more of a job is acknowledged. -/
def State.countAck (s : State) (c : CtxId) : State := s.modCtx c fun x => { x with acked := x.acked + 1 }

/-- The segment exists and has NOTIFY (R4). -/
def State.marked (s : State) (c : CtxId) (k : Nat) : Bool := ((s.segmentAt c k).map (·.notifyFlag)).getD false

/-- Whether the lane's notify policy reports the segment of the job as done (R4, R116). -/
def State.reports (s : State) (l : LaneId) (c : CtxId) (k : Nat) : Bool :=
  (s.ctx c).state != .aborting && policyReports (s.lane l).ctl.config.policy (s.marked c k)

/-- The last frame of a segment is acknowledged: the count, and SEGMENT_DONE where the policy asks for it (R116). -/
def State.segmentAcked (s : State) (l : LaneId) (c : CtxId) (k : Nat) : State :=
  if s.reports l c k then (s.countAck c).post (.segmentDone (s.ctx c).tag (s.ctx c).lane k) else s.countAck c

/-- A DRAINING job has this segment alone left to be acknowledged (R54). -/
def State.completes (s : State) (c : CtxId) : Bool :=
  (s.ctx c).state == .draining && (s.ctx c).acked + 1 == (s.ctx c).segCount

/-- The transmitter and the pair after an ACK's entries have been accounted for (R115, R121). -/
def State.settleAck (s : State) (l : LaneId) (timer : Option Nat → Option Nat) (removed rest : List InFlight) : State :=
  (s.modTx l fun t =>
    { t with retry := 0, deferred := deferredAfter t.deferred removed rest, ackTimer := timer t.ackTimer }).modPair l fun p =>
    { p with frames := p.frames.map fun w =>
        if removed.any (fun e => w.copyOf == some e.seq) then { w with copyOf := none } else w }

theorem acknowledge_eq (s : State) (l : LaneId) (removed rest : List InFlight) : ∃ timer, s.acknowledge l removed rest =
    (removed.foldl (fun s e => s.account l e) (s.modTx l fun t => { t with inFlight := rest })).settleAck l timer removed
      rest :=
  ⟨fun timer => if (s.lane l).ctl.state == .up then
      (if rest.isEmpty then none else some (s.lane l).ctl.config.ackTimeout) else timer, rfl⟩

section
variable (s : State) (l : LaneId) (q : BitVec 4) (c : CtxId) (k f : Nat) {flags : DataFlags}

@[simp] theorem account_cancel : s.account l ⟨q, c, .cancel⟩ = s.freeCtx c .aborted := rfl

theorem account_notLast (h : flags.last = false) : s.account l ⟨q, c, .data k f flags⟩ = s := by
  simp [State.account, h]

theorem account_last (h : flags.last = true) : s.account l ⟨q, c, .data k f flags⟩ =
    if s.completes c then (s.segmentAcked l c k).freeCtx c .completed else s.segmentAcked l c k := by
  have segment : (s.modCtx c fun x => { x with acked := x.acked + 1 }).segmentAt c k = s.segmentAt c k := by
    simp [State.segmentAt, State.jobSegments]
  unfold State.account State.completes State.segmentAcked State.reports State.marked State.countAck
  simp only [h, if_true, segment, ctx_modCtx_same, lane_modCtx]
  cases s.segmentAt c k <;> rfl

end

/-- An ACK is ignored, or acknowledges the entries through the one it names (R84, R115, R118). -/
theorem takeAck_cases (s : State) (l : LaneId) (n : Byte) : s.takeAck l n = s ∨
    ∃ removed rest, selects (s.lane l).ctl.state = true ∧
      splitThrough n.toNat (s.lane l).tx.inFlight = some (removed, rest) ∧ s.takeAck l n = s.acknowledge l removed rest := by
  unfold State.takeAck
  cases hs : (s.lane l).ctl.state with
  | up | held =>
    cases hn : splitThrough n.toNat (s.lane l).tx.inFlight with
    | none => exact .inl rfl
    | some r => exact .inr ⟨r.1, r.2, rfl, rfl, rfl⟩
  | down | syncing | fault => exact .inl rfl

/-- A HELLO is ignored, completes a synchronisation, or is a station restart (R92, R93, R137). -/
theorem takeHello_cases (s : State) (l : LaneId) (window : Byte) (id : Word16) : s.takeHello l window id = s ∨
    (1 ≤ window.toNat ∧ window.toNat ≤ Config.maxWindow ∧
      (((s.lane l).ctl.state = .syncing ∧ s.takeHello l window id = s.synchronise l window.toNat id) ∨
       (selects (s.lane l).ctl.state = true ∧ s.takeHello l window id = s.stationRestart l window.toNat id))) := by
  unfold State.takeHello
  split
  · exact .inl rfl
  · next range =>
    have range : 1 ≤ window.toNat ∧ window.toNat ≤ Config.maxWindow := by omega
    cases hs : (s.lane l).ctl.state with
    | syncing => exact .inr ⟨range.1, range.2, .inl ⟨rfl, rfl⟩⟩
    | up | held => exact .inr ⟨range.1, range.2, .inr ⟨rfl, rfl⟩⟩
    | down | fault => exact .inl rfl

namespace StoreStep

theorem endJobs (s : State) (l : LaneId) (goes : Context → Bool) (reason : EndReason) :
    StoreStep s (s.endJobs l goes reason) := by
  unfold State.endJobs
  generalize allCtxs = cs
  induction cs generalizing s with
  | nil => exact refl s
  | cons c cs ih =>
    rw [List.foldl_cons]
    refine StoreStep.trans ?_ (ih _)
    dsimp only
    split
    · exact (of_same (.withdraw s c)).trans (freeCtx _ c _)
    · exact refl s

theorem account (s : State) (l : LaneId) (e : InFlight) : StoreStep s (s.account l e) := by
  obtain ⟨q, c, what⟩ := e
  cases what with
  | cancel => exact freeCtx s c _
  | data k f flags =>
    cases hl : flags.last with
    | false => rw [account_notLast s l q c k f hl]; exact refl s
    | true =>
      rw [account_last s l q c k f hl]
      have acked : SameStore s (s.segmentAcked l c k) := by
        unfold State.segmentAcked
        have counted : SameStore s (s.countAck c) := .modCtx s c rfl rfl rfl id
        split
        · exact counted.trans (.post _ _)
        · exact counted
      split
      · exact (of_same acked).trans (freeCtx _ c _)
      · exact of_same acked

theorem accounts (l : LaneId) (es : List InFlight) (s : State) : StoreStep s (es.foldl (fun s e => s.account l e) s) := by
  induction es generalizing s with
  | nil => exact refl s
  | cons e es ih => exact (account s l e).trans (ih _)

theorem acknowledge (s : State) (l : LaneId) (removed rest : List InFlight) : StoreStep s (s.acknowledge l removed rest) := by
  obtain ⟨timer, eq⟩ := acknowledge_eq s l removed rest
  rw [eq]
  unfold State.settleAck
  exact (of_same (.modTx s l _)).trans ((accounts l removed _).trans (of_same ((SameStore.modTx _ l _).trans (.modPair _ l _))))

theorem takeAck (s : State) (l : LaneId) (n : Byte) : StoreStep s (s.takeAck l n) := by
  rcases takeAck_cases s l n with eq | ⟨removed, rest, -, -, eq⟩ <;> rw [eq]
  · exact refl s
  · exact acknowledge s l removed rest

theorem stationRestart (s : State) (l : LaneId) (window : Nat) (id : Word16) :
    StoreStep s (s.stationRestart l window id) := by
  rw [stationRestart_eq]
  unfold State.restarted
  exact (of_same (.restarting s l window id)).trans ((endJobs _ l _ _).trans
    (of_same ((SameStore.modCtl _ l _).trans ((SameStore.postLaneState _ l _).trans (.select _ l)))))

theorem takeHello (s : State) (l : LaneId) (window : Byte) (id : Word16) : StoreStep s (s.takeHello l window id) := by
  rcases takeHello_cases s l window id with eq | ⟨-, -, ⟨-, eq⟩ | ⟨-, eq⟩⟩ <;> rw [eq]
  · exact refl s
  · exact of_same (.synchronise s l _ _)
  · exact stationRestart s l _ _

theorem resetLane (s : State) (l : LaneId) : StoreStep s (s.resetLane l) := by
  rw [resetLane_eq]
  exact (of_same (.stopping s l)).trans ((endJobs _ l _ _).trans
    (of_same ((SameStore.stopped _ l).trans (.postLaneState _ l _))))

theorem abortUnstarted (s : State) (c : CtxId) : StoreStep s (s.abortUnstarted c) := by
  unfold State.abortUnstarted
  exact (of_same (.withdraw s c)).trans ((freeCtx _ c _).trans (of_same (.selectIf _ _ _)))

theorem abortStarted (s : State) (c : CtxId) : StoreStep s (s.abortStarted c) := by
  unfold State.abortStarted
  have aborting := SameStore.modCtx (s.withdraw c) c (f := fun y => { y with state := .aborting }) rfl rfl rfl (by simp)
  exact of_same ((SameStore.withdraw s c).trans (aborting.trans ((SameStore.modTx _ _ _).trans (.selectIf _ _ _))))

theorem partReset (s : State) (cause : ResetCause) (straps : BitVec 2) (keep : Bool) :
    StoreStep s (s.partReset cause straps keep) :=
  have reset := SameStore.partReset s cause straps keep
  ⟨fun _ => storeLaw_sameStore reset reset_storeLaw, fun _ => tagLaw_sameStore reset reset_tagLaw⟩

/-- Every event keeps the laws of the store and of the tags. -/
theorem of_event {s t : State} (h : Event s t) : StoreStep s t := by
  cases h with
  | quiet => exact refl s
  | partReset cause straps keep => exact partReset s cause straps keep
  | submit c l cls tag ds free named fresh _ valid room =>
    exact (admitJob l cls free named fresh valid room).trans (of_same (.select _ l))
  | suspend c _ => exact of_same ((SameStore.withdraw s c).trans (.modCtx _ c rfl rfl rfl (by simp)))
  | setPending c b _ => exact of_same (.modCtx s c rfl rfl rfl id)
  | resume c _ => exact of_same ((SameStore.joinTail s c).trans (.select _ _))
  | abortUnstarted c _ _ _ => exact abortUnstarted s c
  | abortStarted c _ _ _ => exact abortStarted s c
  | configure l cfg _ _ => exact of_same (.modCtl s l _)
  | openLane l _ => exact of_same (.of_ctxs rfl rfl rfl rfl)
  | resetLane l => exact resetLane s l
  | fetch l r rs _ => exact of_same (.modLane s l _)
  | reply l bit r _ => exact of_same (.takeReply s l bit r)
  | hello l window id => exact takeHello s l window id
  | ack l n => exact takeAck s l n
  | nak l n t ok => exact of_same (.takeNak ok)
  | hold l => exact of_same (.takeHold s l)
  | ready l t ok => exact of_same (.takeReady ok)
  | probeExpiry l => exact of_same (.probeExpiry s l)
  | holdExpiry l => exact of_same (.holdExpiry s l)
  | ackExpiry l t ok => exact of_same (.ackExpiry ok)
  | dataCut l t ok => exact of_same (.dataCut ok)
  | cancelCut l => exact of_same (.cancelCut s l)

end StoreStep

/-- Settles O57: every event keeps the laws, each by itself; what frees or admits a job moves entries between the free list
and one context, and every other event leaves the store. -/
theorem stepKeepsTheStoreLaws : Obligations.StepKeepsTheStoreLaws := by
  unfold Obligations.StepKeepsTheStoreLaws
  intro s t h
  exact step_induction (fun alike => StoreStep.of_same (.of_alike alike)) StoreStep.trans StoreStep.of_event h

end Sys2Proof.Machine
end

-- ==== Proofs: Requests ====
section
/-! PROOFS. Requests: the reply to a request performed, the fields of bodies, and the checks of the job requests
(R17, R18, R24, R171). -/

namespace Sys2Proof.Machine

/-! ### A request performed is answered (R171) -/

/-- The state on which a request is performed: it has been taken. -/
def State.taking (s : State) : State := { s with host := { s.host with holding := markTaken s.host.holding } }

theorem takesNext_of_performs {s : State} {r : Request} (h : performs s r) : takesNext s r = true := by
  obtain ⟨-, awaited, next, -⟩ := h
  simp [takesNext, awaited, next]

/-- A request performed is answered with the body that performing it gives; performing leaves the host link alone. -/
theorem takeRequest_performs {s : State} {r : Request} {k : Byte} {perform : State → Answer} (h : performs s r)
    (kind : k = replyKindOf r) (host : (perform s.taking).state.host = s.taking.host) :
    takeRequest s r k perform = .next (State.answered { (perform s.taking).state with host := s.host } r
      (perform s.taking).body (perform s.taking).resets) := by
  have next := takesNext_of_performs h
  obtain ⟨held, -, -, fresh⟩ := h
  unfold takeRequest
  rw [if_neg (by simp [held]), if_pos next]
  simp only [fresh]
  change Host.Outcome.next { (perform s.taking).state with
    host := (perform s.taking).state.host.answer r k (perform s.taking).body (perform s.taking).resets } = _
  rw [host, kind]
  rfl

/-- A request that changes no state. -/
theorem takeRequest_replies {s : State} {r : Request} {k : Byte} {perform : State → Answer} {body : List Byte}
    (h : performs s r) (kind : k = replyKindOf r) (same : perform s.taking = { state := s.taking, body := body }) :
    takeRequest s r k perform = .next (s.answered r body) := by
  rw [takeRequest_performs h kind (by rw [same]), same]
  rfl

/-! ### Fields of bodies (R180, R182) -/

@[simp] theorem le16_bytes16 (w : Word16) : le16 (w.extractLsb' 0 8) (w.extractLsb' 8 8) = w := by
  refine BitVec.eq_of_getLsbD_eq fun i hi => ?_
  rw [le16, BitVec.getLsbD_append]
  split
  · simp [*]
  · next h => simp only [BitVec.getLsbD_extractLsb']; simp [show i - 8 < 8 by omega, show 8 + (i - 8) = i by omega]

theorem tagField_bytes16 (w : Word16) : tagField (bytes16 w) = some w := by simp [tagField, bytes16]

theorem tagField_none {body : List Byte} (h : body.length ≠ 2) : tagField body = none := by
  unfold tagField
  split
  · exact absurd rfl h
  · rfl

theorem laneField_none {b : Byte} (h : 8 ≤ b.toNat) : laneField b = none := dif_neg (by omega)

theorem laneField_some {b : Byte} {l : LaneId} (h : b.toNat = l.val) : laneField b = some l := by
  unfold laneField
  rw [dif_pos (by omega)]
  exact congrArg some (Fin.ext h)

theorem le32_bytes32 {n : Nat} (h : n < 2 ^ 32) :
    le32 ((BitVec.ofNat 32 n).extractLsb' 0 8) ((BitVec.ofNat 32 n).extractLsb' 8 8) ((BitVec.ofNat 32 n).extractLsb' 16 8)
      ((BitVec.ofNat 32 n).extractLsb' 24 8) = n := by
  simp only [le32, BitVec.extractLsb'_toNat, BitVec.toNat_ofNat, Nat.shiftRight_eq_div_pow]
  omega

theorem descriptors_cons {d : Descriptor} {more : List Byte} (ho : d.offset < 2 ^ 32) (hl : d.length < 2 ^ 16) :
    descriptors (descriptorBytes d ++ more) = d :: descriptors more := by
  simp only [descriptorBytes, bytes32, natBytes16, bytes16, List.cons_append, List.nil_append, descriptors,
    le32_bytes32 ho, le16_bytes16, BitVec.toNat_ofNat, Nat.mod_eq_of_lt hl]

/-- Descriptors are read back as they were written. -/
theorem descriptors_flatMap {ds : List Descriptor} (h : ∀ d ∈ ds, d.offset < 2 ^ 32 ∧ d.length < 2 ^ 16) :
    descriptors (ds.flatMap descriptorBytes) = ds := by
  induction ds with
  | nil => rfl
  | cons d ds ih =>
    rw [List.forall_mem_cons] at h
    rw [List.flatMap_cons, descriptors_cons h.1.1 h.1.2, ih h.2]

theorem flatMap_descriptorBytes_length (ds : List Descriptor) : (ds.flatMap descriptorBytes).length = 7 * ds.length := by
  simp [List.length_flatMap, descriptorBytes, bytes32, natBytes16, bytes16, Nat.mul_comm]

theorem validDescriptor_iff (d : Descriptor) : validDescriptor d = true ↔ validSegment d := by
  simp only [validDescriptor, Bool.and_eq_true, decide_eq_true_eq, and_assoc]
  rfl

theorem firstInvalid_none {ds : List Descriptor} (h : ∀ d ∈ ds, validSegment d) : firstInvalid ds = none := by
  induction ds with
  | nil => rfl
  | cons d ds ih =>
    rw [List.forall_mem_cons] at h
    rw [firstInvalid, if_pos ((validDescriptor_iff d).mpr h.1), ih h.2]
    rfl

/-- The first invalid segment is the one behind the valid ones (R18). -/
theorem firstInvalid_append {before after : List Descriptor} {d : Descriptor} (h : ∀ x ∈ before, validSegment x)
    (hd : ¬ validSegment d) : firstInvalid (before ++ d :: after) = some before.length := by
  induction before with
  | nil => exact if_neg (by rwa [validDescriptor_iff])
  | cons x xs ih =>
    rw [List.forall_mem_cons] at h
    rw [List.cons_append, firstInvalid, if_pos ((validDescriptor_iff x).mpr h.1), ih h.2]
    rfl

/-! ### The checks of requests with one field -/

theorem onJob_badLength {body : List Byte} (s : State) (act : CtxId → Answer) (h : body.length ≠ 2) :
    onJob body s act = refuse s .badLength := by simp [onJob, tagField_none h]

theorem onJob_noSuchJob {tag : Tag} (s : State) (act : CtxId → Answer) (h : s.findJob tag = none) :
    onJob (bytes16 tag) s act = refuse s .noSuchJob := by simp [onJob, tagField_bytes16, h]

theorem onJob_found {tag : Tag} {c : CtxId} (s : State) (act : CtxId → Answer) (h : s.findJob tag = some c) :
    onJob (bytes16 tag) s act = act c := by simp [onJob, tagField_bytes16, h]

theorem onLane_badLength {body : List Byte} (s : State) (act : LaneId → Answer) (h : body.length ≠ 1) :
    onLane body s act = refuse s .badLength := by
  unfold onLane
  split
  · exact absurd rfl h
  · rfl

theorem onLane_badLane {b : Byte} (s : State) (act : LaneId → Answer) (h : 8 ≤ b.toNat) :
    onLane [b] s act = refuse s .badLane := by simp [onLane, laneField_none h]

theorem onLane_lane {b : Byte} {l : LaneId} (s : State) (act : LaneId → Answer) (h : b.toNat = l.val) :
    onLane [b] s act = act l := by simp [onLane, laneField_some h]

/-- The job that holds a tag is the one found (R10). -/
theorem findJob_of_holdsTag {s : State} {tag : Tag} {c : CtxId} (h : holdsTag s tag c) : s.findJob tag = some c := by
  obtain ⟨named, live, tagged, unique⟩ := h
  cases hf : s.findJob tag with
  | none => exact absurd tagged ((findJob_none.mp hf).resolve_left named c live)
  | some d =>
    obtain ⟨-, live', tagged'⟩ := findJob_some hf
    rw [unique d live' tagged']

section
variable {s : State} {r : Request} {k : Byte} {perform : State → Answer}

/-- The checks of a request on a job, whatever it does. -/
theorem jobRequest_checks (h : performs s r) (kind : k = replyKindOf r) (hp : ∀ v, ∃ act, perform v = onJob r.body v act) :
    (r.body.length ≠ 2 → takeRequest s r k perform = .next (s.answered r [statusCode .badLength])) ∧
    ∀ tag : Tag, r.body = bytes16 tag → (tag = 0 ∨ ∀ d, (s.ctx d).state ≠ .free → (s.ctx d).tag ≠ tag) →
      takeRequest s r k perform = .next (s.answered r [statusCode .noSuchJob]) := by
  obtain ⟨act, eq⟩ := hp s.taking
  refine ⟨fun len => takeRequest_replies h kind ?_, fun tag body unheld => takeRequest_replies h kind ?_⟩ <;> rw [eq]
  · exact onJob_badLength _ _ len
  · rw [body]
    exact onJob_noSuchJob _ _ (findJob_none.mpr unheld)

/-- The checks of a request on a lane, whatever it does. -/
theorem laneRequest_checks (h : performs s r) (kind : k = replyKindOf r) (hp : ∀ v, ∃ act, perform v = onLane r.body v act) :
    (r.body.length ≠ 1 → takeRequest s r k perform = .next (s.answered r [statusCode .badLength])) ∧
    ∀ lane : Byte, r.body = [lane] → 8 ≤ lane.toNat →
      takeRequest s r k perform = .next (s.answered r [statusCode .badLane]) := by
  obtain ⟨act, eq⟩ := hp s.taking
  refine ⟨fun len => takeRequest_replies h kind ?_, fun lane body beyond => takeRequest_replies h kind ?_⟩ <;> rw [eq]
  · exact onLane_badLength _ _ len
  · rw [body]
    exact onLane_badLane _ _ beyond

end

/-- Settles O20: the eight commands share two lists of checks. -/
theorem oneFieldRequestsAreChecked : Obligations.OneFieldRequestsAreChecked := by
  unfold Obligations.OneFieldRequestsAreChecked
  intro s c seq body kind h
  refine ⟨fun listed => ?_, fun listed => ?_⟩ <;>
    simp only [List.mem_cons, Prod.mk.injEq, List.not_mem_nil, or_false] at listed
  · rcases listed with ⟨rfl, rfl⟩ | ⟨rfl, rfl⟩ | ⟨rfl, rfl⟩ | ⟨rfl, rfl⟩
    all_goals exact jobRequest_checks h rfl fun v => ⟨_, rfl⟩
  · rcases listed with ⟨rfl, rfl⟩ | ⟨rfl, rfl⟩ | ⟨rfl, rfl⟩ | ⟨rfl, rfl⟩
    all_goals exact laneRequest_checks h rfl fun v => ⟨_, rfl⟩

theorem jobFlagsByte_eq (x : Context) :
    jobFlagsByte x = (if x.suspendPending then 1 else 0) + (if x.started then 2 else 0) := by
  unfold jobFlagsByte
  cases x.suspendPending <;> cases x.started <;> decide

theorem bytes16_eq (w : Word16) : bytes16 w = [w.setWidth 8, (w >>> 8).setWidth 8] := by
  have low : w.extractLsb' 0 8 = w.setWidth 8 := BitVec.eq_of_toNat_eq (by simp)
  have high : w.extractLsb' 8 8 = (w >>> 8).setWidth 8 := BitVec.eq_of_toNat_eq (by simp)
  rw [bytes16, low, high]

/-- Settles O21: the search by tag finds the job that holds it, and the reply reads its record. -/
theorem jobStatusReportsTheRecord : Obligations.JobStatusReportsTheRecord := by
  unfold Obligations.JobStatusReportsTheRecord
  intro s seq tag c h held
  have found : s.taking.findJob tag = some c := findJob_of_holdsTag held
  refine takeRequest_replies h rfl ?_
  rw [performJobStatus, onJob_found _ _ found]
  simp only [jobStatusReply, jobFlagsByte_eq, bytes16_eq]
  have link : s.taking.tagOf (s.taking.ctx c).link = (match (s.ctx c).link with
      | none => 0
      | some d => (s.ctx d).tag) := by
    change s.tagOf (s.ctx c).link = _
    cases (s.ctx c).link <;> rfl
  rw [link]
  rfl

/-! ### SUBMIT (R17, R18) -/

section
variable {lane cls count : Byte} {tag : Tag} {rest : List Byte} (s : State)

theorem performSubmit_short {body : List Byte} (h : body.length < 5) : performSubmit body s = refuse s .badLength := by
  match body, h with
  | [], _ | [_], _ | [_, _], _ | [_, _, _], _ | [_, _, _, _], _ => rfl
  | _ :: _ :: _ :: _ :: _ :: _, h => simp only [List.length_cons] at h; omega

theorem performSubmit_wrongLength (h : rest.length ≠ 7 * count.toNat) :
    performSubmit (lane :: cls :: (bytes16 tag ++ count :: rest)) s = refuse s .badLength := if_pos h

theorem performSubmit_badLane (len : rest.length = 7 * count.toNat) (h : 8 ≤ lane.toNat) :
    performSubmit (lane :: cls :: (bytes16 tag ++ count :: rest)) s = refuse s .badLane := by
  simp [performSubmit, bytes16, len, laneField_none h]

/-- What SUBMIT does once the body's length and its lane have been checked (R18). -/
theorem performSubmit_lane {l : LaneId} (len : rest.length = 7 * count.toNat) (h : laneField lane = some l) :
    performSubmit (lane :: cls :: (bytes16 tag ++ count :: rest)) s =
      if h : cls.toNat < 4 ∧ 1 ≤ count.toNat ∧ count.toNat ≤ Config.maxSegments ∧ tag ≠ 0 then
        if (s.findJob tag).isSome then refuse s .tagInUse
        else match firstInvalid (descriptors rest) with
          | some i => { state := s, body := [statusCode .badSegment, natByte i] }
          | none =>
            match s.lowestFree with
            | none => refuse s .noContext
            | some c =>
              if s.freeList.length < count.toNat then refuse s .noSegments
              else { state := (s.admitJob c l ⟨cls.toNat, h.1⟩ tag (descriptors rest)).select l,
                     body := [statusCode .ok, natByte c.val] }
      else refuse s .badValue := by
  simp only [performSubmit, bytes16, List.cons_append, List.nil_append, len, ne_eq, not_true_eq_false, if_false, h,
    le16_bytes16] <;> rfl

end

theorem lowestFree_none {s : State} : s.lowestFree = none ↔ ∀ c, (s.ctx c).state ≠ .free := by
  simp [State.lowestFree, allCtxs]

/-- Settles O17: each check in turn, behind those before it. -/
theorem submitIsCheckedInOrder : Obligations.SubmitIsCheckedInOrder := by
  unfold Obligations.SubmitIsCheckedInOrder
  intro s seq lane cls count tag rest body r hr h
  subst hr
  have reply : ∀ {reply : List Byte}, performSubmit body s.taking = { state := s.taking, body := reply } →
      exec (.submit seq body) s = .next (s.answered ⟨seq, 0x20, body⟩ reply) := takeRequest_replies h rfl
  refine ⟨fun short => reply (performSubmit_short _ short), fun hb wrong => reply ?_, fun hb len => ⟨fun beyond => reply ?_,
    fun onLane bad => reply ?_, fun onLane class4 some_segment few named => ⟨fun ⟨c, live, tagged⟩ => reply ?_,
      fun fresh ds bounds hds => ⟨fun before d after split valid invalid => reply ?_, fun valid full => reply ?_,
        fun valid ⟨c, free⟩ short => reply ?_⟩⟩⟩⟩ <;> subst hb
  · exact performSubmit_wrongLength _ wrong
  · exact performSubmit_badLane _ len beyond
  all_goals have lane_some : laneField lane = some ⟨lane.toNat, onLane⟩ := laneField_some rfl
  · rw [performSubmit_lane _ len lane_some, dif_neg]
    · rfl
    · rintro ⟨class4, some_segment, few, named⟩
      simp only [named, or_false, Config.maxSegments] at bad few
      omega
  all_goals
    have ranges : cls.toNat < 4 ∧ 1 ≤ count.toNat ∧ count.toNat ≤ Config.maxSegments ∧ tag ≠ 0 :=
      ⟨class4, some_segment, few, named⟩
    rw [performSubmit_lane _ len lane_some, dif_pos ranges]
  · rw [if_pos]
    · rfl
    · rw [Option.isSome_iff_ne_none]
      exact fun none => (findJob_none.mp none).resolve_left named c live tagged
  all_goals
    have unheld : s.taking.findJob tag = none := findJob_none.mpr (.inr fresh)
    have count_eq : ds.length = count.toNat := by rw [hds, flatMap_descriptorBytes_length] at len; omega
    rw [if_neg (by simp [unheld]), hds, descriptors_flatMap bounds]
  · rw [split, firstInvalid_append valid invalid]
    rfl
  · have none_free : s.taking.lowestFree = none := lowestFree_none.mpr full
    simp only [firstInvalid_none valid, none_free]
    rfl
  · cases hf : s.taking.lowestFree with
    | none => exact absurd free (lowestFree_none.mp hf c)
    | some d =>
      have room : s.taking.freeList.length < count.toNat := count_eq ▸ short
      simp only [firstInvalid_none valid, if_pos room]
      rfl

end Sys2Proof.Machine
end

-- ==== Proofs: Admission ====
section
/-! PROOFS. Admission: a SUBMIT that passes its checks (R6, R19, R32, R41, R42). -/

namespace Sys2Proof.Machine

/-! ### The best ready head (R38) -/

theorem bestReady_none {ready : Vector (List CtxId) 4} : bestReady ready = none ↔ ∀ k : ClassId, ready[k] = [] := by
  simp only [bestReady, List.findSome?_eq_none_iff, List.mem_finRange, true_imp_iff, Option.map_eq_none_iff,
    List.head?_eq_none_iff]

/-- The best ready head is the head of its queue. -/
theorem bestReady_some {ready : Vector (List CtxId) 4} {k : ClassId} {c : CtxId} (h : bestReady ready = some (k, c)) :
    ∃ q, ready[k] = c :: q := by
  obtain ⟨j, -, hj⟩ := List.exists_of_findSome?_eq_some h
  simp only [Option.map_eq_some_iff, Prod.mk.injEq] at hj
  obtain ⟨c', head, rfl, rfl⟩ := hj
  exact ⟨_, (List.head?_eq_some_iff.mp head).choose_spec⟩

theorem setQueue_get (ready : Vector (List CtxId) 4) (k j : ClassId) (q : List CtxId) :
    (setQueue ready k q)[j] = if k = j then q else ready[j] := vector_get_set ready k j q

/-- Two sets of ready queues are compared class by class. -/
theorem ready_ext {v w : Vector (List CtxId) 4} (h : ∀ k : ClassId, v[k] = w[k]) : v = w := Vector.ext fun i hi => h ⟨i, hi⟩

/-- The lowest-numbered FREE context (R19). -/
theorem lowestFree_eq {s : State} {c : CtxId} (free : (s.ctx c).state = .free) (lower : ∀ d, d < c → (s.ctx d).state ≠ .free) :
    s.lowestFree = some c := by
  cases h : s.lowestFree with
  | none => exact absurd free (lowestFree_none.mp h c)
  | some d =>
    obtain ⟨-, before, after, split, none_free⟩ := List.find?_eq_some_iff_append.mp h
    have sorted : (before ++ d :: after).Pairwise (· < ·) := split ▸ List.pairwise_lt_finRange 48
    have mem : c ∈ before ++ d :: after := split ▸ mem_allCtxs c
    rcases List.mem_append.mp mem with hb | hb
    · exact absurd free (by simpa using none_free c hb)
    · rcases List.mem_cons.mp hb with rfl | ha
      · rfl
      · have below : d < c := List.rel_of_pairwise_cons (List.pairwise_append.mp sorted).2.1 ha
        exact absurd (lowestFree_some h) (lower d below)

/-! ### What joining a queue and selection change -/

section
variable (s : State) (c : CtxId) (l : LaneId) (cls : ClassId) (tag : Tag) (ds : List Descriptor)

/-- A lane's scheduler once a context has joined the tail of a queue (R41). -/
def Scheduler.join (d : Scheduler) (k : ClassId) (c : CtxId) : Scheduler := { d with ready := setQueue d.ready k (d.ready[k] ++ [c]) }

@[simp] theorem lane_joinTail_same {l : LaneId} (h : (s.ctx c).lane = l) :
    (s.joinTail c).lane l = { s.lane l with sched := (s.lane l).sched.join (s.ctx c).cls c } := by
  subst h
  simp only [State.joinTail, lane_modCtx, lane_modSched_same]
  rfl

@[simp] theorem lane_joinTail_ne {k : LaneId} (h : (s.ctx c).lane ≠ k) : (s.joinTail c).lane k = s.lane k := by
  simp only [State.joinTail, lane_modCtx, lane_modSched_ne _ _ h]

@[simp] theorem lane_admitJob_same :
    (s.admitJob c l cls tag ds).lane l = { s.lane l with sched := (s.lane l).sched.join cls c } := by
  obtain ⟨u, eq, ctxs, lanes, -⟩ := admitJob_joins s c l cls tag ds
  have ctx : u.ctx c = { admitted s l cls tag ds with state := .free } := by rw [ctx_congr ctxs, ctx_modCtx_same]
  rw [eq, lane_joinTail_same u c (by rw [ctx]; rfl), ctx, lane_congr lanes]
  rfl

@[simp] theorem lane_admitJob_ne {k : LaneId} (h : l ≠ k) : (s.admitJob c l cls tag ds).lane k = s.lane k := by
  obtain ⟨u, eq, ctxs, lanes, -⟩ := admitJob_joins s c l cls tag ds
  rw [eq, lane_joinTail_ne u c (by rw [ctx_congr ctxs, ctx_modCtx_same]; exact h), lane_congr lanes]

end

section
variable (s : State) (l : LaneId)

/-- No selection outside UP and HELD, or while a job runs (R43, R44). -/
theorem select_of_busy (h : selects (s.lane l).ctl.state = false ∨ (s.lane l).sched.running ≠ none) : s.select l = s := by
  rcases select_cases s l with ⟨eq, -⟩ | ⟨open_, idle, -⟩
  · exact eq
  · simp [open_, idle] at h

/-- The same part but for contexts and lanes. -/
structure SameElsewhere (s t : State) : Prop where
  pool : t.pool = s.pool
  freeList : t.freeList = s.freeList
  pins : t.pins = s.pins
  mem : t.mem = s.mem
  notices : t.notices = s.notices
  host : t.host = s.host
  heldInReset : t.heldInReset = s.heldInReset
  powerOnDue : t.powerOnDue = s.powerOnDue
  pending : t.pending = s.pending

/-- Selection touches the lane's scheduler and the state and link of the job that it selects alone (R43). -/
theorem select_leaves : SameElsewhere s (s.select l) := by
  rcases select_cases s l with ⟨eq, -⟩ | ⟨-, -, ⟨k, c, -, eq, -⟩ | ⟨r, -, eq, -⟩⟩ <;> rw [eq]
  all_goals exact ⟨rfl, rfl, rfl, rfl, rfl, rfl, rfl, rfl, rfl⟩

theorem lane_takeHead_same (k : ClassId) (c : CtxId) : (s.takeHead l k c).lane l =
    { s.lane l with sched := ⟨setQueue (s.lane l).sched.ready k (s.lane l).sched.ready[k].tail, some c, none⟩ } := by
  simp only [State.takeHead, lane_modCtx, lane_modSched_same]

theorem ctx_takeHead_same (k : ClassId) (c : CtxId) :
    (s.takeHead l k c).ctx c = { s.ctx c with state := .running, link := (s.lane l).sched.resume } := by
  simp only [State.takeHead, ctx_modCtx_same, ctx_modSched]

theorem ctx_takeHead_ne (k : ClassId) {c d : CtxId} (h : c ≠ d) : (s.takeHead l k c).ctx d = s.ctx d := by
  simp only [State.takeHead, ctx_modCtx_ne _ _ h, ctx_modSched]

end

/-- On an idle lane without a candidate, the job that joins is the best head (R42). -/
theorem bestReady_join {d : Scheduler} {k : ClassId} {c : CtxId} (h : bestReady d.ready = none) :
    bestReady (d.join k c).ready = some (k, c) := by
  have empty := bestReady_none.mp h
  have queues : ∀ j : ClassId, (d.join k c).ready[j] = if k = j then [c] else [] := fun j => by
    rw [Scheduler.join, setQueue_get, empty, empty]
    rfl
  cases hb : bestReady (d.join k c).ready with
  | none => simpa [queues] using bestReady_none.mp hb k
  | some found =>
    obtain ⟨j, c'⟩ := found
    obtain ⟨q, head⟩ := bestReady_some hb
    rw [queues] at head
    split at head
    · next hj => cases head; rw [hj]
    · cases head

section
variable {s : State} {c : CtxId} {l : LaneId} {cls : ClassId} {tag : Tag} {ds : List Descriptor}

/-- Admission to an idle lane: the job runs at once, and its queue is empty again (R42). -/
theorem select_admitJob_idle (open_ : selects (s.lane l).ctl.state = true) (idle : (s.lane l).sched.running = none)
    (none_waits : (s.lane l).sched.resume = none ∧ bestReady (s.lane l).sched.ready = none) :
    ((s.admitJob c l cls tag ds).select l).lane l =
        { s.lane l with sched := { (s.lane l).sched with running := some c } } ∧
      ((s.admitJob c l cls tag ds).select l).ctx c = { admitted s l cls tag ds with state := .running } ∧
      (∀ d, d ≠ c → ((s.admitJob c l cls tag ds).select l).ctx d = s.ctx d) ∧
      ∀ k, k ≠ l → ((s.admitJob c l cls tag ds).select l).lane k = s.lane k := by
  have lane := lane_admitJob_same s c l cls tag ds
  have taken : (s.admitJob c l cls tag ds).select l = (s.admitJob c l cls tag ds).takeHead l cls c := by
    rcases select_cases (s.admitJob c l cls tag ds) l with ⟨-, busy | busy | busy⟩ | ⟨-, -, ⟨k, c', best, eq, -⟩ | ⟨r, resume, -⟩⟩
    · simp [lane, open_] at busy
    · simp [lane, Scheduler.join, idle] at busy
    · simp [lane, bestReady_join none_waits.2] at busy
    · rw [lane, bestReady_join none_waits.2, Option.some.injEq, Prod.mk.injEq] at best
      rw [eq, best.1, best.2]
    · simp [lane, Scheduler.join, none_waits.1] at resume
  have empty := bestReady_none.mp none_waits.2
  have queues : setQueue (setQueue (s.lane l).sched.ready cls [c]) cls [] = (s.lane l).sched.ready := ready_ext fun j => by
    rw [setQueue_get, setQueue_get, empty]
    split <;> rfl
  rw [taken]
  refine ⟨?_, ?_, fun d hd => ?_, fun k hk => ?_⟩
  · rw [lane_takeHead_same, lane]
    simp only [Scheduler.join, setQueue_get, if_true, empty, List.nil_append, List.tail_cons, queues, none_waits.1]
  · rw [ctx_takeHead_same, ctx_admitJob_same, lane]
    simp [Scheduler.join, none_waits.1, admitted]
  · rw [ctx_takeHead_ne _ _ _ hd.symm, ctx_admitJob_ne _ _ _ _ _ _ hd.symm]
  · simp only [State.takeHead, lane_modCtx, lane_modSched_ne _ _ hk.symm, lane_admitJob_ne _ _ _ _ _ _ hk.symm]

/-! ### Pages -/

theorem touches_iff (gs : List Segment) (p : Nat) :
    touches gs p = true ↔ ∃ g ∈ gs, touchesPage g.offset g.length p := by
  simp only [touches, List.any_eq_true, segmentTouches, Bool.and_eq_true, decide_eq_true_eq]
  rfl

theorem touches_zipWith_entryOf {links : List (Option PoolId)} (len : links.length = ds.length) (p : Nat) :
    touches (List.zipWith entryOf ds links) p = true ↔ ∃ d ∈ ds, touchesPage d.offset d.length p := by
  rw [touches_iff]
  induction ds generalizing links with
  | nil => simp
  | cons d ds ih =>
    match links, len with
    | link :: links, len =>
      simp only [List.zipWith_cons_cons, List.exists_mem_cons_iff, ih (Nat.succ.inj len)]
      rfl

/-- One pin more on each page that a descriptor touches (R32). -/
theorem admitJob_pins_get (distinct : s.freeList.Nodup) (room : ds.length ≤ s.freeList.length) (p : PageId) :
    ((∃ d ∈ ds, touchesPage d.offset d.length p.val) → (s.admitJob c l cls tag ds).pins[p] = s.pins[p] + 1) ∧
    ((∀ d ∈ ds, ¬ touchesPage d.offset d.length p.val) → (s.admitJob c l cls tag ds).pins[p] = s.pins[p]) := by
  obtain ⟨links, len, segments⟩ :=
    jobSegments_admitJob_same (s := s) (c := c) (l := l) (cls := cls) (tag := tag) distinct room
  have touched := touches_zipWith_entryOf len p.val
  rw [admitJob_pins, pinPages_get, segments]
  refine ⟨fun h => by rw [if_pos (touched.mpr h)], fun h => ?_⟩
  rw [if_neg fun ht => ?_, Nat.add_zero]
  obtain ⟨d, hd, hp⟩ := touched.mp ht
  exact h d hd hp

/-- Each entry taken holds its descriptor and links to the next one (R6). -/
theorem admitJob_pool_get (distinct : s.freeList.Nodup) (i : Nat) (h : i < ds.length) (h' : i < s.freeList.length)
    (room : ds.length ≤ s.freeList.length) : (s.admitJob c l cls tag ds).pool[s.freeList[i]] =
      entryOf ds[i] (if i + 1 < ds.length then s.freeList[i + 1]? else none) := by
  have len : (s.freeList.take ds.length).length = ds.length := by simpa using room
  have entry : ∀ e, e = (s.freeList.take ds.length)[i] → (s.admitJob c l cls tag ds).pool[e] =
      entryOf ds[i] (if i + 1 < ds.length then (s.freeList.take ds.length)[i + 1]? else none) := by
    rintro _ rfl
    exact fillEntries_get (distinct.sublist (List.take_sublist _ _)) len i (by omega) h
  rw [entry _ List.getElem_take.symm, List.getElem?_take]
  split <;> rfl

/-- The seven checks passed (R18). -/
theorem performSubmit_passes {clsByte laneByte count : Byte} (class_eq : clsByte.toNat = cls.val)
    (lane_eq : laneByte.toNat = l.val) (count_eq : count.toNat = ds.length) (some_segment : 1 ≤ ds.length)
    (few : ds.length ≤ 32) (named : tag ≠ 0) (fresh : ∀ d, (s.ctx d).state ≠ .free → (s.ctx d).tag ≠ tag)
    (valid : ∀ d ∈ ds, validSegment d) (lowest : s.lowestFree = some c) (room : ds.length ≤ s.freeList.length) :
    performSubmit (submitBody laneByte clsByte tag count ds) s =
      { state := (s.admitJob c l cls tag ds).select l, body := [statusCode .ok, BitVec.ofNat 8 c.val] } := by
  have bounds : ∀ d ∈ ds, d.offset < 2 ^ 32 ∧ d.length < 2 ^ 16 := fun d hd => by
    have := valid d hd
    unfold validSegment at this
    omega
  have len : (ds.flatMap descriptorBytes).length = 7 * count.toNat := by rw [flatMap_descriptorBytes_length, count_eq]
  have ranges : clsByte.toNat < 4 ∧ 1 ≤ count.toNat ∧ count.toNat ≤ Config.maxSegments ∧ tag ≠ 0 := by
    rw [count_eq, class_eq]
    exact ⟨cls.isLt, some_segment, few, named⟩
  have unheld : s.findJob tag = none := findJob_none.mpr (.inr fresh)
  have enough : ¬ s.freeList.length < count.toNat := by omega
  rw [submitBody, performSubmit_lane _ len (laneField_some lane_eq), dif_pos ranges, if_neg (by simp [unheld]),
    descriptors_flatMap bounds]
  simp only [firstInvalid_none valid, lowest, if_neg enough, class_eq]
  rfl

end

/-- Settles O18: the checks pass, the job is admitted, and the lane is busy or, by the law of idle lanes, has no other
candidate than the job. -/
theorem submitAdmitsTheJob : Obligations.SubmitAdmitsTheJob := by
  unfold Obligations.SubmitAdmitsTheJob
  intro s seq lane cls tag ds c body hb h some_segment few named fresh valid free lower room distinct idleLaw job x
  have lowest : s.taking.lowestFree = some c := lowestFree_eq free lower
  have performed := performSubmit_passes (s := s.taking) (c := c) (l := lane) (cls := cls) (tag := tag) (ds := ds)
    (clsByte := BitVec.ofNat 8 cls.val) (laneByte := BitVec.ofNat 8 lane.val) (count := BitVec.ofNat 8 ds.length)
    (by simp only [BitVec.toNat_ofNat]; omega) (by simp only [BitVec.toNat_ofNat]; omega)
    (by simp only [BitVec.toNat_ofNat]; omega) some_segment few named fresh valid lowest room
  rw [← hb] at performed
  have leaves := select_leaves (s.taking.admitJob c lane cls tag ds) lane
  have when_busy (busy : selects x.ctl.state = false ∨ x.sched.running ≠ none) :
      (s.taking.admitJob c lane cls tag ds).select lane = s.taking.admitJob c lane cls tag ds :=
    select_of_busy _ _ (by rw [lane_admitJob_same]; exact busy)
  have when_idle (open_ : selects x.ctl.state = true) (idle : x.sched.running = none) :=
    select_admitJob_idle (s := s.taking) (c := c) (cls := cls) (tag := tag) (ds := ds) open_ idle (idleLaw lane open_ idle)
  have others : (∀ d, d ≠ c → ((s.taking.admitJob c lane cls tag ds).select lane).ctx d = s.ctx d) ∧
      ∀ k, k ≠ lane → ((s.taking.admitJob c lane cls tag ds).select lane).lane k = s.lane k := by
    by_cases busy : selects x.ctl.state = false ∨ x.sched.running ≠ none
    · rw [when_busy busy]
      exact ⟨fun d hd => ctx_admitJob_ne _ _ _ _ _ _ hd.symm, fun k hk => lane_admitJob_ne _ _ _ _ _ _ hk.symm⟩
    · simp only [not_or, Bool.not_eq_false, not_not] at busy
      exact (when_idle busy.1 busy.2).2.2
  refine ⟨{ (s.taking.admitJob c lane cls tag ds).select lane with host := s.host }, ?_, ?_, leaves.freeList, fun i hi hf => ?_,
    fun e he => ?_, fun p => ?_, fun k hk => ?_, leaves.mem, leaves.notices, rfl, leaves.heldInReset, leaves.powerOnDue,
    leaves.pending, fun busy => ?_, fun open_ idle => ?_⟩
  · have answered := takeRequest_performs (perform := performSubmit body) h rfl (by rw [performed]; exact leaves.host)
    rw [performed] at answered
    exact answered
  · exact others.1
  · dsimp only
    rw [leaves.pool]
    exact admitJob_pool_get (s := s.taking) distinct i hi hf room
  · dsimp only
    rw [leaves.pool, admitJob_pool]
    exact fillEntries_notMem he
  · dsimp only
    rw [leaves.pins]
    exact admitJob_pins_get (s := s.taking) distinct room p
  · exact others.2 k hk
  · have eq := when_busy busy
    exact ⟨(congrArg (State.ctx · c) eq).trans (ctx_admitJob_same ..),
      (congrArg (State.lane · lane) eq).trans (lane_admitJob_same ..)⟩
  · exact ⟨(when_idle open_ idle).2.1, (when_idle open_ idle).1⟩

end Sys2Proof.Machine
end

-- ==== Proofs: Records ====
section
/-! PROOFS. Records: freeing a context, the accounting of one entry, and the part after reset (R7, R22, R33, R116, R177). -/

namespace Sys2Proof.Machine

/-- Settles O19: each field of the state after freeing, from its own law. -/
theorem freeingReturnsEverything : Obligations.FreeingReturnsEverything := by
  unfold Obligations.FreeingReturnsEverything
  intro s c reason x t
  refine ⟨freeCtx_freeList s c reason, fun e he => ?_, fun e he => ?_, fun p => ?_, freeCtx_notices s c reason,
    ctx_freeCtx_same s c reason, fun d hd => ctx_freeCtx_ne s reason hd.symm, freeCtx_mem s c reason,
    freeCtx_lanes s c reason, freeCtx_host s c reason, freeCtx_heldInReset s c reason, freeCtx_powerOnDue s c reason,
    freeCtx_pending s c reason⟩
  · rw [freeCtx_pool]
    exact clearEntries_mem he
  · rw [freeCtx_pool]
    exact clearEntries_notMem he
  · have touched := touches_iff (s.jobSegments c) p.val
    rw [freeCtx_pins, unpinPages_get]
    refine ⟨fun h => by rw [if_pos (touched.mpr h)], fun h => ?_⟩
    rw [if_neg fun ht => ?_, Nat.sub_zero]
    obtain ⟨g, hg, hp⟩ := touched.mp ht
    exact h g hg hp

/-! ### One acknowledged entry (R116) -/

theorem reports_iff (s : State) (l : LaneId) (c : CtxId) (k : Nat) : s.reports l c k = true ↔
    (s.ctx c).state ≠ .aborting ∧ ((s.lane l).ctl.config.policy = .all ∨
      ((s.lane l).ctl.config.policy = .flagged ∧ ∃ g, s.segmentAt c k = some g ∧ g.notifyFlag = true)) := by
  have marked : s.marked c k = true ↔ ∃ g, s.segmentAt c k = some g ∧ g.notifyFlag = true := by
    unfold State.marked
    cases s.segmentAt c k <;> simp
  rw [← marked, State.reports, Bool.and_eq_true, bne_iff_ne]
  cases (s.lane l).ctl.config.policy <;> simp [policyReports]

theorem completes_iff (s : State) (c : CtxId) : s.completes c = true ↔
    (s.ctx c).state = .draining ∧ (s.ctx c).acked + 1 = (s.ctx c).segCount := by simp [State.completes]

/-- Settles O45: by what the entry records, whether the policy reports its segment, and whether it is the job's last. -/
theorem ackAccountsForEachEntry : Obligations.AckAccountsForEachEntry := by
  unfold Obligations.AckAccountsForEachEntry
  intro s l q c
  refine ⟨account_cancel s l q c, fun k f flags => ?_⟩
  intro e x marked reports completes v
  have last : flags.last = true → s.account l e =
      if s.completes c then (s.segmentAcked l c k).freeCtx c .completed else s.segmentAcked l c k := account_last s l q c k f
  have acked : s.segmentAcked l c k = if s.reports l c k then v.post (.segmentDone x.tag x.lane k) else v := rfl
  have reports_iff : reports ↔ s.reports l c k = true := (reports_iff s l c k).symm
  have completes_iff : completes ↔ s.completes c = true := (completes_iff s c).symm
  refine ⟨account_notLast s l q c k f, fun hl hr hc => ?_, fun hl hr hc => ?_, fun hl hr hc => ?_, fun hl hr hc => ?_⟩
  all_goals
    rw [completes_iff] at hc
    rw [reports_iff] at hr
    simp only [last hl, acked, hc, hr, if_true, Bool.false_eq_true, if_false]

/-! ### The part after reset (R25, R37, R61, R104, R128, R165, R179) -/

theorem reset_memory (a : Nat) : readByte State.reset.mem a = 0 := rfl

theorem initial_ready (k : ClassId) : Lane.initial.sched.ready[k] = [] := by simp [Lane.initial, Scheduler.empty]

/-- Settles O54: the values are those of the records' definitions. -/
theorem resetLeavesTheStatedValues : Obligations.ResetLeavesTheStatedValues := by
  unfold Obligations.ResetLeavesTheStatedValues
  refine ⟨reset_ctx, ?_, reset_memory, fun p => by simp [State.reset], fun l => ?_, rfl, rfl, rfl, rfl, rfl, rfl⟩
  · rw [reset_freeList]
    exact List.map_coe_finRange_eq_range
  · intro x
    have initial : x = Lane.initial := reset_lane l
    rw [initial]
    exact ⟨rfl, rfl, initial_ready, rfl, rfl, rfl, rfl, rfl⟩

theorem initial_laneLaw : LaneLaw Lane.initial := by
  unfold LaneLaw WindowLaw TimerLaw SettingsLaw ReturnLaw
  decide

@[simp] theorem reset_chainOf (l : LaneId) : chainOf State.reset l = [] := by
  simp [chainOf, Lane.initial, Scheduler.empty, chainFrom]

theorem reset_scheduleLaw : ScheduleLaw State.reset := by
  refine ⟨fun c => ?_, fun l => ?_, fun l => ?_, fun c l => ?_, fun c => ?_⟩
  · simp [Lane.initial, Scheduler.empty]
  · simp [Lane.initial, Scheduler.empty]
  · simp [Lane.initial, Controller.initial, selects]
  · simp [Lane.initial, Transmitter.initial]
  · simp

theorem reset_flowLaw : FlowLaw State.reset := by
  refine ⟨fun l e he => ?_, fun l => ?_, fun c => ?_⟩
  · simp [Lane.initial, Transmitter.initial] at he
  · simp [Lane.initial, Transmitter.initial]
  · simp [Lane.initial, Transmitter.initial, framesOf, runsTo]

/-- Settles O60: every law at the records' first values. -/
theorem resetMeetsEveryLaw : Obligations.ResetMeetsEveryLaw := by
  unfold Obligations.ResetMeetsEveryLaw
  refine ⟨reset_memoryWf, ?_, ?_, fun l => reset_lane l ▸ initial_laneLaw, reset_storeLaw, reset_tagLaw, reset_scheduleLaw,
    reset_flowLaw⟩
  · unfold NoticeLaw
    decide
  · unfold HostLaw
    decide

end Sys2Proof.Machine
end

-- ==== Proofs: Faults ====
section
/-! PROOFS. Faults: entry into FAULT and the rollback of the lane's jobs (R13, R99, R129 to R132). -/

namespace Sys2Proof.Machine

/-! ### The order of the requeued jobs (R131) -/

theorem mem_firstOccurrences {seen cs : List CtxId} {c : CtxId} : c ∈ firstOccurrences seen cs ↔ c ∈ cs ∧ c ∉ seen := by
  induction cs generalizing seen with
  | nil => simp [firstOccurrences]
  | cons x xs ih =>
    unfold firstOccurrences
    split
    · next hx =>
      rw [ih, List.mem_cons]
      constructor
      · exact fun h => ⟨.inr h.1, h.2⟩
      · rintro ⟨rfl | h, hc⟩
        · exact absurd hx hc
        · exact ⟨h, hc⟩
    · next hx =>
      rw [List.mem_cons, ih, List.mem_cons, List.mem_cons]
      by_cases hc : c = x
      · subst hc; simp [hx]
      · simp [hc]

theorem firstOccurrences_nodup (seen cs : List CtxId) : (firstOccurrences seen cs).Nodup := by
  induction cs generalizing seen with
  | nil => exact .nil
  | cons x xs ih =>
    unfold firstOccurrences
    split
    · exact ih _
    · exact List.nodup_cons.mpr ⟨fun h => (mem_firstOccurrences.mp h).2 List.mem_cons_self, ih _⟩

theorem oldestFrame_cons (e : InFlight) (es : List InFlight) (c : CtxId) :
    oldestFrame (e :: es) c = if e.ctx = c ∧ e.what ≠ .cancel then 0 else oldestFrame es c + 1 := by
  unfold oldestFrame
  rw [List.findIdx_cons]
  by_cases h : e.ctx = c ∧ e.what ≠ .cancel
  · rw [if_pos h, cond_eq_ite, if_pos (by simpa using h)]
  · rw [if_neg h, cond_eq_ite, if_neg (by simpa using h)]

/-- The contexts of an in-flight list's DATA entries, and any others behind them, by first occurrence, stand in the order of
their oldest frames. -/
theorem firstOccurrences_sorted (es : List InFlight) (seen others : List CtxId) :
    (firstOccurrences seen (dataContexts es ++ others)).Pairwise fun c d => oldestFrame es c ≤ oldestFrame es d := by
  induction es generalizing seen with
  | nil => exact List.pairwise_of_forall fun c d => Nat.le_refl 0
  | cons e es ih =>
    have later : ∀ seen', (∀ f k flags, e.what = .data k f flags → e.ctx ∈ seen') →
        (firstOccurrences seen' (dataContexts es ++ others)).Pairwise
          fun c d => oldestFrame (e :: es) c ≤ oldestFrame (e :: es) d := fun seen' he => by
      refine (ih seen').imp_of_mem fun {c d} hc hd h => ?_
      have beyond : ∀ x ∈ firstOccurrences seen' (dataContexts es ++ others), ¬ (e.ctx = x ∧ e.what ≠ .cancel) := by
        rintro x hx ⟨rfl, hw⟩
        cases hk : e.what with
        | cancel => exact hw hk
        | data k f flags => exact (mem_firstOccurrences.mp hx).2 (he f k flags hk)
      rw [oldestFrame_cons, oldestFrame_cons, if_neg (beyond c hc), if_neg (beyond d hd)]
      exact Nat.succ_le_succ h
    cases hw : e.what with
    | cancel =>
      have skip : dataContexts (e :: es) = dataContexts es := by simp [dataContexts, hw]
      rw [skip]
      exact later seen (by simp [hw])
    | data k f flags =>
      have head : dataContexts (e :: es) = e.ctx :: dataContexts es := by simp [dataContexts, hw]
      rw [head, List.cons_append, firstOccurrences]
      split
      · next seen_already => exact later seen fun _ _ _ _ => seen_already
      · refine List.pairwise_cons.mpr ⟨fun d _ => ?_, later _ fun _ _ _ _ => List.mem_cons_self⟩
        rw [oldestFrame_cons, if_pos ⟨rfl, by simp [hw]⟩]
        exact Nat.zero_le _

/-! ### The rollback (R130, R131) -/

theorem needsRollback_iff {l : LaneId} {x : Context} :
    needsRollback l x = true ↔ x.state ≠ .free ∧ x.lane = l ∧ (x.acked < x.sent ∨ x.cut ≠ 0) := by
  simp [needsRollback, and_assoc]

section
variable {s : State} {l : LaneId}

theorem mem_requeued {c : CtxId} : c ∈ s.requeued l ↔ (s.ctx c).state = .draining ∧ needsRollback l (s.ctx c) = true := by
  simp [State.requeued, mem_firstOccurrences, mem_allCtxs]

theorem requeued_nodup : (s.requeued l).Nodup := (firstOccurrences_nodup _ _).filter _

theorem requeued_sorted :
    (s.requeued l).Pairwise fun c d => oldestFrame (s.lane l).tx.inFlight c ≤ oldestFrame (s.lane l).tx.inFlight d :=
  (firstOccurrences_sorted _ _ _).sublist List.filter_sublist

/-- A context after a rollback of its lane (R13, R130, R131). -/
def afterRollback (l : LaneId) (x : Context) : Context :=
  if needsRollback l x then { rolledBack x with state := if x.state = .draining then .queued else x.state } else x

@[simp] theorem ctx_rollback (c : CtxId) : (s.rollback l).ctx c = afterRollback l (s.ctx c) := by
  unfold State.rollback afterRollback
  rw [ctx_modSched]
  have get : ∀ (f : CtxId → Context), ({ s with ctxs := Vector.ofFn f } : State).ctx c = f c := fun f => by simp [State.ctx]
  rw [get]
  by_cases h : needsRollback l (s.ctx c) = true
  · by_cases hd : (s.ctx c).state = .draining
    · simp [h, hd, mem_requeued]
    · simp [h, hd, mem_requeued, rolledBack]
  · simp [h]

/-- The ready queues after a rollback: the requeued jobs of each class in front (R131). -/
def State.requeuedReady (s : State) (l : LaneId) : Vector (List CtxId) 4 :=
  Vector.ofFn fun k : ClassId => (s.requeued l).filter (fun c => (s.ctx c).cls = k) ++ (s.lane l).sched.ready[k]

/-- Replacing the Context Table leaves the lanes. -/
theorem lane_withCtxs (v : Vector Context 48) (k : LaneId) : ({ s with ctxs := v } : State).lane k = s.lane k := rfl

@[simp] theorem lane_rollback_same : (s.rollback l).lane l =
    { s.lane l with sched := { (s.lane l).sched with ready := s.requeuedReady l } } := by
  unfold State.rollback State.requeuedReady
  simp only [lane_modSched_same, lane_withCtxs]

@[simp] theorem lane_rollback_ne {k : LaneId} (h : l ≠ k) : (s.rollback l).lane k = s.lane k := by
  unfold State.rollback
  simp only [lane_modSched_ne _ _ h, lane_withCtxs]

/-- A rollback touches contexts and the lane's queues alone. -/
theorem rollback_leaves : SameElsewhere s (s.rollback l) := by
  unfold State.rollback
  constructor <;> simp only [modSched_pool, modSched_freeList, modSched_pins, modSched_mem, modSched_notices, modSched_host,
    modSched_heldInReset, modSched_powerOnDue, modSched_pending]

theorem requeuedReady_get (k : ClassId) : (s.requeuedReady l)[k] =
    (s.requeued l).filter (fun c => (s.ctx c).cls = k) ++ (s.lane l).sched.ready[k] := by simp [State.requeuedReady]

end

/-! ### Entry into FAULT (R99, R129, R132) -/

section
variable (s : State) (l : LaneId) (why : FaultCause) (cause : LaneCause)

/-- Entry into FAULT before the rollback: timers, state, LANE_STATE and the frames that wait. -/
def State.faulted : State :=
  ((s.modCtl l fun c => { c with state := .fault, lastFault := why, probeTimer := none, holdTimer := none }).postLaneState l
    cause).modPair l fun p => { p with answers := [], probes := 0, frames := [] }

/-- The transmitter after an entry into FAULT (R129). -/
def State.silenced (t : State) (back : List CancelEntry) : State :=
  t.modTx l fun t => { t with inFlight := [], cancels := back ++ t.cancels, ackTimer := none, retry := 0, deferred := none }

theorem enterFault_eq : s.enterFault l why cause = ((s.faulted l why cause).rollback l).silenced l
    ((s.faulted l why cause).returnedCancels ((s.faulted l why cause).lane l).tx.inFlight) := rfl

theorem lane_faulted_same : (s.faulted l why cause).lane l = { s.lane l with
    ctl := { (s.lane l).ctl with state := .fault, lastFault := why, probeTimer := none, holdTimer := none }
    pair := { (s.lane l).pair with answers := [], probes := 0, frames := [] } } := by simp [State.faulted]

theorem lane_faulted_ne {k : LaneId} (h : l ≠ k) : (s.faulted l why cause).lane k = s.lane k := by simp [State.faulted, h]

theorem ctx_faulted (c : CtxId) : (s.faulted l why cause).ctx c = s.ctx c := rfl

@[simp] theorem ctx_enterFault (c : CtxId) : (s.enterFault l why cause).ctx c = afterRollback l (s.ctx c) := by
  rw [enterFault_eq, State.silenced, ctx_modTx, ctx_rollback, ctx_faulted]

@[simp] theorem lane_enterFault_ne {k : LaneId} (h : l ≠ k) : (s.enterFault l why cause).lane k = s.lane k := by
  rw [enterFault_eq, State.silenced, lane_modTx_ne _ _ h, lane_rollback_ne h, lane_faulted_ne s l why cause h]

/-- The returned CANCELs carry the tags of their jobs (R129). -/
theorem returnedCancels_eq (es : List InFlight) : s.returnedCancels es =
    (es.filter fun e => e.what == .cancel).map fun e => CancelEntry.mk e.ctx (s.ctx e.ctx).tag := by
  induction es with
  | nil => rfl
  | cons e es ih =>
    unfold State.returnedCancels at ih ⊢
    cases hw : e.what <;> simp [hw, ih]

theorem requeued_faulted : (s.faulted l why cause).requeued l = s.requeued l := by
  unfold State.requeued
  rw [lane_faulted_same]
  simp only [ctx_faulted]

theorem requeuedReady_faulted : (s.faulted l why cause).requeuedReady l = s.requeuedReady l := by
  refine ready_ext fun k => ?_
  rw [requeuedReady_get, requeuedReady_get, requeued_faulted, lane_faulted_same]
  exact congrArg (· ++ _) (List.filter_congr fun c _ => rfl)

theorem lane_enterFault_same : (s.enterFault l why cause).lane l = { s.lane l with
    ctl := { (s.lane l).ctl with state := .fault, lastFault := why, probeTimer := none, holdTimer := none }
    pair := { (s.lane l).pair with answers := [], probes := 0, frames := [] }
    tx := { (s.lane l).tx with
      inFlight := []
      cancels := s.returnedCancels (s.lane l).tx.inFlight ++ (s.lane l).tx.cancels
      ackTimer := none
      retry := 0
      deferred := none }
    sched := { (s.lane l).sched with ready := s.requeuedReady l } } := by
  rw [enterFault_eq, State.silenced, lane_modTx_same, lane_rollback_same, requeuedReady_faulted, lane_faulted_same]
  rfl

end

/-- Settles O49: the rollback decides contexts and queues, the rest of the entry the lane's other records. -/
theorem faultEntryRollsTheLaneBack : Obligations.FaultEntryRollsTheLaneBack := by
  unfold Obligations.FaultEntryRollsTheLaneBack
  intro s l why cause x t rolls
  have rolls_iff : ∀ c, rolls c ↔ needsRollback l (s.ctx c) = true := fun c => needsRollback_iff.symm
  have lane := lane_enterFault_same s l why cause
  have leaves := rollback_leaves (s := s.faulted l why cause) (l := l)
  refine ⟨?_, fun k hk => lane_enterFault_ne s l why cause hk.symm, ?_, fun c hc => ?_, fun c hc => ?_, fun k => ?_,
    leaves.pool, leaves.freeList, leaves.pins, leaves.mem, leaves.host, leaves.heldInReset, leaves.powerOnDue,
    leaves.pending⟩
  · refine leaves.notices.trans ?_
    simp [State.faulted]
  · rw [lane, returnedCancels_eq]
  · rw [rolls_iff] at hc
    exact (ctx_enterFault s l why cause c).trans (if_neg hc)
  · rw [rolls_iff] at hc
    exact (ctx_enterFault s l why cause c).trans (if_pos hc)
  · refine ⟨(s.requeued l).filter fun c => (s.ctx c).cls = k, ?_, requeued_nodup.filter _, fun c => ?_,
      requeued_sorted.sublist List.filter_sublist⟩
    · rw [lane]
      exact requeuedReady_get k
    · simp only [List.mem_filter, mem_requeued, decide_eq_true_eq, rolls_iff]
      tauto

end Sys2Proof.Machine
end

-- ==== Proofs: Ending jobs ====
section
/-! PROOFS. Ending jobs: withdrawing and freeing the jobs of a lane, and the lane's line of linked jobs (R40, R55 to R57, R101,
R138). -/

namespace Sys2Proof.Machine

/-! ### Jobs linked by their return links (R40) -/

/-- The contexts of a list follow one another by their return links, from a place to the end. -/
def Linked (s : State) : Option CtxId → List CtxId → Prop
  | o, [] => o = none
  | o, c :: cs => o = some c ∧ Linked s (s.ctx c).link cs

theorem linked_congr {s t : State} {o : Option CtxId} {cs : List CtxId} (h : ∀ d ∈ cs, (t.ctx d).link = (s.ctx d).link)
    (hl : Linked s o cs) : Linked t o cs := by
  induction cs generalizing o with
  | nil => exact hl
  | cons c cs ih =>
    rw [List.forall_mem_cons] at h
    exact ⟨hl.1, ih h.2 (h.1 ▸ hl.2)⟩

theorem linked_head {s : State} {o : Option CtxId} {cs : List CtxId} (h : Linked s o cs) : cs.head? = o := by
  cases cs with
  | nil => exact h.symm
  | cons c cs => exact h.1.symm

/-- A chain that ends before its bound is linked to the end. -/
theorem linked_chainFrom {s : State} {n : Nat} {o : Option CtxId} (h : (chainFrom s (n + 1) o).length ≤ n) :
    Linked s o (chainFrom s (n + 1) o) := by
  induction n generalizing o with
  | zero =>
    cases o with
    | none => rfl
    | some c => simp [chainFrom] at h
  | succ n ih =>
    cases o with
    | none => rfl
    | some c => exact ⟨rfl, ih (Nat.le_of_succ_le_succ h)⟩

theorem chainFrom_linked {s : State} {n : Nat} {o : Option CtxId} {cs : List CtxId} (h : Linked s o cs)
    (short : cs.length ≤ n) : chainFrom s n o = cs := by
  induction cs generalizing n o with
  | nil =>
    cases h
    cases n <;> rfl
  | cons c cs ih =>
    cases n with
    | zero => cases short
    | succ n =>
      rw [h.1, chainFrom, ih h.2 (Nat.le_of_succ_le_succ short)]

/-- A linked context's link names the next one. -/
theorem linked_split {s : State} {o : Option CtxId} {before after : List CtxId} {p c : CtxId}
    (h : Linked s o (before ++ p :: c :: after)) : (s.ctx p).link = some c ∧ Linked s (s.ctx c).link after := by
  induction before generalizing o with
  | nil => exact ⟨h.2.1, h.2.2⟩
  | cons b bs ih => exact ih h.2

/-- A member whose link names a context stands right before it. -/
theorem split_of_link {s : State} {o : Option CtxId} {line : List CtxId} {p c : CtxId} (h : Linked s o line) (hp : p ∈ line)
    (hl : (s.ctx p).link = some c) : ∃ before after, line = before ++ p :: c :: after := by
  induction line generalizing o with
  | nil => cases hp
  | cons x xs ih =>
    rcases List.mem_cons.mp hp with rfl | hp
    · cases xs with
      | nil => cases hl.symm.trans h.2
      | cons y ys =>
        have hy : some c = some y := hl.symm.trans h.2.1
        cases hy
        exact ⟨[], ys, rfl⟩
    · obtain ⟨before, after, rfl⟩ := ih h.2 hp
      exact ⟨x :: before, after, rfl⟩

/-- Closing the gap that a context leaves: the one before it takes its link (R55). -/
theorem linked_splice {s t : State} {o : Option CtxId} {before after : List CtxId} {p c : CtxId}
    (h : Linked s o (before ++ p :: c :: after)) (hp : (t.ctx p).link = (s.ctx c).link)
    (others : ∀ d ∈ before ++ after, (t.ctx d).link = (s.ctx d).link) : Linked t o (before ++ p :: after) := by
  induction before generalizing o with
  | nil => exact ⟨h.1, hp ▸ linked_congr others h.2.2⟩
  | cons b bs ih =>
    rw [List.cons_append, List.forall_mem_cons] at others
    exact ⟨h.1, others.1 ▸ ih h.2 others.2⟩

/-! ### The line of a lane: the running job and the chain behind it -/

/-- The lane's line is its running job, if any, and its chain: exactly its RUNNING and PREEMPTED jobs, linked one to the
next; and its ready queues hold exactly its QUEUED jobs, each in its class (R39, R40). -/
structure LaneLine (s : State) (l : LaneId) (line : List CtxId) : Prop where
  linked : Linked s ((s.lane l).sched.running.or (s.lane l).sched.resume) line
  nodup : line.Nodup
  short : line.length ≤ 4
  members : ∀ c, c ∈ line ↔ ((s.ctx c).state = .running ∨ (s.ctx c).state = .preempted) ∧ (s.ctx c).lane = l
  running : ∀ c, (s.lane l).sched.running = some c ↔ (s.ctx c).state = .running ∧ (s.ctx c).lane = l
  exclusive : (s.lane l).sched.running.isSome = true → (s.lane l).sched.resume = none
  queued : ∀ c k, c ∈ (s.lane l).sched.ready[k] ↔ (s.ctx c).state = .queued ∧ (s.ctx c).lane = l ∧ (s.ctx c).cls = k

/-- A line is the running job and the chain. -/
theorem LaneLine.eq_chain {s : State} {l : LaneId} {line : List CtxId} (h : LaneLine s l line) :
    (s.lane l).sched.running.toList ++ chainOf s l = line := by
  have linked := h.linked
  unfold chainOf
  cases hr : (s.lane l).sched.running with
  | none =>
    rw [hr, Option.none_or] at linked
    exact chainFrom_linked linked h.short
  | some c =>
    rw [hr, Option.some_or] at linked
    cases line with
    | nil => cases linked
    | cons x xs =>
      cases linked.1
      have short : xs.length ≤ 4 := Nat.le_of_succ_le h.short
      simp only [Option.toList_some, List.singleton_append, chainFrom_linked linked.2 short]

theorem count_flatten_ready (ready : Vector (List CtxId) 4) (c : CtxId) :
    ready.toList.flatten.count c = ∑ k : ClassId, ready[k].count c := by
  have ofFn : ready.toList = List.ofFn fun k : Fin 4 => ready[k] :=
    List.ext_getElem (by simp) fun i h h' => by
      simp only [Vector.getElem_toList, List.getElem_ofFn, Fin.getElem_fin]
  rw [List.count_flatten, ofFn, List.map_ofFn, List.sum_ofFn]
  rfl

/-- A lane that keeps the scheduling laws has a line (R39, R40). -/
theorem laneLine_of_scheduleLaw {s : State} (h : ScheduleLaw s) (l : LaneId) :
    LaneLine s l ((s.lane l).sched.running.toList ++ chainOf s l) := by
  obtain ⟨place, chain, -, -, -⟩ := h
  obtain ⟨short, members, sorted, exclusive⟩ := chain l
  have run : ∀ c, (s.lane l).sched.running = some c ↔ (s.ctx c).state = .running ∧ (s.ctx c).lane = l :=
    fun c => (place c).2.2.1 l
  have mem_chain : ∀ c, c ∈ chainOf s l ↔ (s.ctx c).state = .preempted ∧ (s.ctx c).lane = l := fun c => by
    refine ⟨members c, fun hc => ?_⟩
    have count := (place c).2.2.2.1 l
    rw [if_pos hc] at count
    exact List.count_pos_iff.mp (by omega)
  refine ⟨?_, ?_, ?_, fun c => ?_, run, exclusive, fun c k => ?_⟩
  · unfold chainOf at short ⊢
    cases hr : (s.lane l).sched.running with
    | none =>
      rw [hr] at short
      exact linked_chainFrom short
    | some c =>
      rw [hr] at short
      exact ⟨rfl, linked_chainFrom short⟩
  · exact sorted.imp fun {a b} hlt => by rintro rfl; exact lt_irrefl _ hlt
  · have one : (s.lane l).sched.running.toList.length ≤ 1 := by cases (s.lane l).sched.running <;> simp
    rw [List.length_append]
    omega
  · rw [List.mem_append, Option.mem_toList, run, mem_chain]
    tauto
  · obtain ⟨count, own, -⟩ := place c
    have count := count l
    rw [count_flatten_ready] at count
    constructor
    · intro hk
      have hk := List.count_pos_iff.mpr hk
      have some_place := Finset.single_le_sum (f := fun j : ClassId => (s.lane l).sched.ready[j].count c)
        (fun _ _ => Nat.zero_le _) (Finset.mem_univ k)
      split at count
      · next hc =>
        refine ⟨hc.1, hc.2, ?_⟩
        by_contra hne
        have hown := List.count_pos_iff.mpr (own hc.1)
        rw [hc.2] at hown
        have two := Finset.add_le_sum (f := fun j : ClassId => (s.lane l).sched.ready[j].count c)
          (s := Finset.univ) (i := (s.ctx c).cls) (j := k) (fun _ _ => Nat.zero_le _) (Finset.mem_univ _) (Finset.mem_univ _) hne
        omega
      · omega
    · rintro ⟨hq, rfl, rfl⟩
      exact own hq

/-! ### Withdrawal (R55, R56) -/

/-- What the withdrawal of a job from its lane does: the job leaves its queue, the running slot or the line, and nothing else
changes but the link that named it. -/
structure Withdrawn (s t : State) (l : LaneId) (c : CtxId) (line : List CtxId) : Prop where
  elsewhere : SameElsewhere s t
  lane : t.lane l = { s.lane l with sched := (t.lane l).sched }
  lanes : ∀ k, k ≠ l → t.lane k = s.lane k
  ready : ∀ k : ClassId, (t.lane l).sched.ready[k] = (s.lane l).sched.ready[k].filter (· ≠ c)
  running : (t.lane l).sched.running = (s.lane l).sched.running.filter (· ≠ c)
  exclusive : (t.lane l).sched.running.isSome = true → (t.lane l).sched.resume = none
  linked : Linked t ((t.lane l).sched.running.or (t.lane l).sched.resume) (line.filter (· ≠ c))
  record : ∃ o b, t.ctx c = { s.ctx c with link := o, suspendPending := b }
  others : ∀ d, d ≠ c → t.ctx d = { s.ctx d with link := (t.ctx d).link }
  linkKept : ∀ d, d ≠ c → (s.ctx d).link ≠ some c → t.ctx d = s.ctx d

theorem SameElsewhere.refl (s : State) : SameElsewhere s s := ⟨rfl, rfl, rfl, rfl, rfl, rfl, rfl, rfl, rfl⟩

theorem filter_ne_of_notMem {cs : List CtxId} {c : CtxId} (h : c ∉ cs) : cs.filter (· ≠ c) = cs :=
  List.filter_eq_self.mpr fun d hd => by simpa using fun e : d = c => h (e ▸ hd)

/-- Taking the first context off a list of linked ones. -/
theorem linked_tail {s t : State} {c : CtxId} {line : List CtxId} (h : Linked s (some c) line) (distinct : line.Nodup)
    (others : ∀ d, d ≠ c → (t.ctx d).link = (s.ctx d).link) : Linked t (s.ctx c).link (line.filter (· ≠ c)) := by
  cases line with
  | nil => cases h
  | cons x xs =>
    cases h.1
    rw [List.nodup_cons] at distinct
    rw [List.filter_cons_of_neg (by simp), filter_ne_of_notMem distinct.1]
    exact linked_congr (fun d hd => others d fun e => distinct.1 (e ▸ hd)) h.2

section
variable {s : State} {l : LaneId} {c : CtxId} {line : List CtxId}

/-- A job that does not run is not in the running slot. -/
theorem LaneLine.running_ne (h : LaneLine s l line) (hc : (s.ctx c).state ≠ .running) :
    (s.lane l).sched.running.filter (· ≠ c) = (s.lane l).sched.running := by
  cases hr : (s.lane l).sched.running with
  | none => rfl
  | some r =>
    have ne : r ≠ c := by
      rintro rfl
      exact hc ((h.running r).mp hr).1
    simp [Option.filter, ne]

/-- A job that is not QUEUED is in no queue. -/
theorem LaneLine.ready_ne (h : LaneLine s l line) (hc : (s.ctx c).state ≠ .queued) (k : ClassId) :
    (s.lane l).sched.ready[k].filter (· ≠ c) = (s.lane l).sched.ready[k] :=
  filter_ne_of_notMem fun mem => hc ((h.queued c k).mp mem).1

/-- A job that neither runs nor is PREEMPTED is not in the line. -/
theorem LaneLine.line_ne (h : LaneLine s l line) (hr : (s.ctx c).state ≠ .running) (hp : (s.ctx c).state ≠ .preempted) :
    line.filter (· ≠ c) = line :=
  filter_ne_of_notMem fun mem => ((h.members c).mp mem).1.elim hr hp

/-- A job without a place: nothing to withdraw. -/
theorem withdrawn_self (h : LaneLine s l line) (hq : (s.ctx c).state ≠ .queued) (hr : (s.ctx c).state ≠ .running)
    (hp : (s.ctx c).state ≠ .preempted) : Withdrawn s s l c line :=
  ⟨.refl s, rfl, fun _ _ => rfl, fun k => (h.ready_ne hq k).symm, (h.running_ne hr).symm, h.exclusive,
    (h.line_ne hr hp).symm ▸ h.linked, ⟨_, _, rfl⟩, fun _ _ => rfl, fun _ _ _ => rfl⟩

theorem withdrawn_unqueue (h : LaneLine s l line) (hq : (s.ctx c).state = .queued) (hl : (s.ctx c).lane = l) :
    Withdrawn s (s.unqueue c) l c line := by
  have lane : (s.unqueue c).lane l = { s.lane l with sched := { (s.lane l).sched with
      ready := setQueue (s.lane l).sched.ready (s.ctx c).cls ((s.lane l).sched.ready[(s.ctx c).cls].filter (· ≠ c)) } } := by
    rw [← hl]
    exact lane_modSched_same s _ _
  have hr : (s.ctx c).state ≠ .running := by simp [hq]
  refine ⟨⟨rfl, rfl, rfl, rfl, rfl, rfl, rfl, rfl, rfl⟩, by rw [lane], fun k hk => lane_modSched_ne s _ (hl ▸ hk.symm), fun k => ?_, ?_, ?_, ?_,
    ⟨_, _, rfl⟩, fun _ _ => rfl, fun _ _ _ => rfl⟩
  · rw [lane, setQueue_get]
    split
    · next hk => subst hk; rfl
    · next hk =>
      refine (filter_ne_of_notMem fun mem => hk ?_).symm
      exact ((h.queued c k).mp mem).2.2
  · rw [lane, h.running_ne hr]
  · rw [lane]
    exact h.exclusive
  · rw [lane, h.line_ne hr (by simp [hq])]
    have linked : Linked (s.unqueue c) ((s.lane l).sched.running.or (s.lane l).sched.resume) line :=
      linked_congr (s := s) (fun _ _ => rfl) h.linked
    exact linked

theorem lane_vacate_same : (s.vacate l c).lane l =
    { s.lane l with sched := { (s.lane l).sched with running := none, resume := (s.ctx c).link } } := by
  simp [State.vacate]

theorem lane_vacate_ne {k : LaneId} (h : l ≠ k) : (s.vacate l c).lane k = s.lane k := by simp [State.vacate, h]

theorem ctx_vacate_same : (s.vacate l c).ctx c = { s.ctx c with link := none, suspendPending := false } := by
  simp [State.vacate]

theorem ctx_vacate_ne {d : CtxId} (h : c ≠ d) : (s.vacate l c).ctx d = s.ctx d := by simp [State.vacate, h]

theorem withdrawn_vacate (h : LaneLine s l line) (hr : (s.ctx c).state = .running) (hl : (s.ctx c).lane = l) :
    Withdrawn s (s.vacate l c) l c line := by
  have running : (s.lane l).sched.running = some c := (h.running c).mpr ⟨hr, hl⟩
  have others : ∀ d, d ≠ c → (s.vacate l c).ctx d = s.ctx d := fun d hd => ctx_vacate_ne hd.symm
  refine ⟨⟨rfl, rfl, rfl, rfl, rfl, rfl, rfl, rfl, rfl⟩, by rw [lane_vacate_same], fun k hk => lane_vacate_ne hk.symm,
    fun k => ?_, ?_, ?_, ?_, ⟨_, _, ctx_vacate_same⟩, fun d hd => by rw [others d hd], fun d hd _ => others d hd⟩
  · rw [lane_vacate_same, h.ready_ne (by simp [hr])]
  · rw [lane_vacate_same, running]
    simp [Option.filter]
  · simp [lane_vacate_same]
  · rw [lane_vacate_same]
    have linked := h.linked
    rw [running, Option.some_or] at linked
    exact linked_tail linked h.nodup fun d hd => by rw [others d hd]

/-- The holder of a context's link is the job before it in the line (R55). -/
theorem linkHolder_eq {before after : List CtxId} {p : CtxId} (h : LaneLine s l (before ++ p :: c :: after)) :
    s.linkHolder l c = some p := by
  have holds : ∀ q, ((s.ctx q).link == some c &&
      ((s.lane l).sched.running == some q || ((s.ctx q).state == .preempted && (s.ctx q).lane == l))) = true ↔
      (s.ctx q).link = some c ∧ q ∈ before ++ p :: c :: after := fun q => by
    simp only [Bool.and_eq_true, Bool.or_eq_true, beq_iff_eq, h.running, h.members]
    tauto
  have unique : ∀ q, (s.ctx q).link = some c → q ∈ before ++ p :: c :: after → q = p := fun q link mem => by
    obtain ⟨before', after', split⟩ := split_of_link h.linked mem link
    have distinct := h.nodup
    rw [← List.singleton_append, ← List.append_assoc] at distinct split
    rw [← List.singleton_append (l := c :: after'), ← List.append_assoc] at split
    obtain ⟨-, behind, apart⟩ := List.nodup_append.mp distinct
    have same := ((List.append_cons_inj_of_notMem (fun mem => apart c mem c List.mem_cons_self rfl)
      (List.nodup_cons.mp behind).1).mp split).1
    exact (List.singleton_inj.mp (List.append_inj' same rfl).2).symm
  unfold State.linkHolder
  cases hf : allCtxs.find? _ with
  | none =>
    have none_holds := List.find?_eq_none.mp hf p (mem_allCtxs p)
    exact absurd ((holds p).mpr ⟨(linked_split h.linked).1, by simp⟩) none_holds
  | some q =>
    have q_holds := List.find?_some hf
    rw [holds] at q_holds
    rw [unique q q_holds.1 q_holds.2]

/-- The splice at the resume point: the point moves on to the next job (R55). -/
theorem splice_resume (h : (s.lane l).sched.resume = some c) : s.splice l c =
    (s.modSched l fun d => { d with resume := (s.ctx c).link }).modCtx c fun y => { y with link := none } := by
  simp only [State.splice, if_pos h]

/-- The splice behind another job: that job takes the link (R55). -/
theorem splice_holder {p : CtxId} (h : (s.lane l).sched.resume ≠ some c) (hp : s.linkHolder l c = some p) : s.splice l c =
    (s.modCtx p fun y => { y with link := (s.ctx c).link }).modCtx c fun y => { y with link := none } := by
  simp only [State.splice, if_neg h, hp]

theorem withdrawn_splice_resume (h : LaneLine s l line) (hp : (s.ctx c).state = .preempted)
    (resume : (s.lane l).sched.resume = some c) : Withdrawn s (s.splice l c) l c line := by
  have idle : (s.lane l).sched.running = none := by
    cases hr : (s.lane l).sched.running with
    | none => rfl
    | some r => simp [h.exclusive (by simp [hr])] at resume
  have lane : (s.splice l c).lane l =
      { s.lane l with sched := { (s.lane l).sched with resume := (s.ctx c).link } } := by
    rw [splice_resume resume, lane_modCtx, lane_modSched_same]
  have others : ∀ d, d ≠ c → (s.splice l c).ctx d = s.ctx d := fun d hd => by
    rw [splice_resume resume, ctx_modCtx_ne _ _ hd.symm, ctx_modSched]
  have linked := h.linked
  rw [idle, Option.none_or, resume] at linked
  have record : (s.splice l c).ctx c = { s.ctx c with link := none } := by
    rw [splice_resume resume, ctx_modCtx_same, ctx_modSched]
  refine ⟨?_, by rw [lane], fun k hk => ?_, fun k => ?_, ?_, ?_, ?_, ⟨none, _, record⟩, fun d hd => by rw [others d hd],
    fun d hd _ => others d hd⟩
  · rw [splice_resume resume]
    exact ⟨rfl, rfl, rfl, rfl, rfl, rfl, rfl, rfl, rfl⟩
  · rw [splice_resume resume, lane_modCtx, lane_modSched_ne _ _ hk.symm]
  · rw [lane, h.ready_ne (by simp [hp])]
  · rw [lane, h.running_ne (by simp [hp])]
  · simp [lane, idle]
  · rw [lane, idle]
    exact linked_tail linked h.nodup fun d hd => by rw [others d hd]

/-- A job of the line that stands neither in the slot nor at the resume point stands behind another. -/
theorem LaneLine.split_behind (h : LaneLine s l line) (mem : c ∈ line) (running : (s.lane l).sched.running ≠ some c)
    (resume : (s.lane l).sched.resume ≠ some c) : ∃ before p after, line = before ++ p :: c :: after := by
  obtain ⟨before, after, split⟩ := List.append_of_mem mem
  rcases List.eq_nil_or_concat before with rfl | ⟨front, p, rfl⟩
  · have head := linked_head h.linked
    rw [split, List.nil_append, List.head?_cons] at head
    cases hr : (s.lane l).sched.running with
    | none => rw [hr, Option.none_or] at head; exact absurd head.symm resume
    | some r => rw [hr, Option.some_or] at head; exact absurd (hr.trans head.symm) running
  · exact ⟨front, p, after, by simp [split]⟩

theorem withdrawn_splice_holder (h : LaneLine s l line) (hp : (s.ctx c).state = .preempted) (hl : (s.ctx c).lane = l)
    (resume : (s.lane l).sched.resume ≠ some c) : Withdrawn s (s.splice l c) l c line := by
  have running : (s.lane l).sched.running ≠ some c := fun hr => by
    have := ((h.running c).mp hr).1
    simp [hp] at this
  obtain ⟨before, p, after, rfl⟩ := h.split_behind ((h.members c).mpr ⟨.inr hp, hl⟩) running resume
  have eq := splice_holder resume (linkHolder_eq h)
  have distinct := h.nodup
  simp only [List.nodup_append, List.nodup_cons, List.mem_cons, not_or] at distinct
  obtain ⟨-, ⟨⟨hpc, hpa⟩, hca, -⟩, apart⟩ := distinct
  have before_ne : ∀ d ∈ before, d ≠ p ∧ d ≠ c := fun d hd =>
    ⟨apart d hd p (.inl rfl), apart d hd c (.inr (.inl rfl))⟩
  have kept : ∀ d, d ≠ c → d ≠ p → (s.splice l c).ctx d = s.ctx d := fun d hd hdp => by
    rw [eq, ctx_modCtx_ne _ _ hd.symm, ctx_modCtx_ne _ _ hdp.symm]
  have holder : (s.splice l c).ctx p = { s.ctx p with link := (s.ctx c).link } := by
    rw [eq, ctx_modCtx_ne _ _ (Ne.symm hpc), ctx_modCtx_same]
  have record : (s.splice l c).ctx c = { s.ctx c with link := none } := by
    rw [eq, ctx_modCtx_same, ctx_modCtx_ne _ _ hpc]
  have lanes : ∀ k, (s.splice l c).lane k = s.lane k := fun k => by rw [eq, lane_modCtx, lane_modCtx]
  have link := (linked_split h.linked).1
  have rest : (before ++ p :: c :: after).filter (· ≠ c) = before ++ p :: after := by
    rw [List.filter_append, filter_ne_of_notMem fun mem => (before_ne c mem).2 rfl, List.filter_cons_of_pos (by simpa using hpc),
      List.filter_cons_of_neg (by simp), filter_ne_of_notMem hca]
  refine ⟨?_, by rw [lanes], fun k _ => lanes k, fun k => ?_, ?_, ?_, ?_, ⟨none, _, record⟩, fun d hd => ?_,
    fun d hd hdl => kept d hd ?_⟩
  · rw [eq]
    exact ⟨rfl, rfl, rfl, rfl, rfl, rfl, rfl, rfl, rfl⟩
  · rw [lanes, h.ready_ne (by simp [hp])]
  · rw [lanes, h.running_ne (by simp [hp])]
  · rw [lanes]
    exact h.exclusive
  · rw [lanes, rest]
    refine linked_splice h.linked (by rw [holder]) fun d hd => ?_
    rcases List.mem_append.mp hd with hd | hd
    · rw [kept d (before_ne d hd).2 (before_ne d hd).1]
    · rw [kept d (fun e => hca (e ▸ hd)) fun e => hpa (e ▸ hd)]
  · by_cases hdp : d = p
    · rw [hdp, holder]
    · rw [kept d hd hdp]
  · rintro rfl
    exact hdl link

/-- Withdrawal of a job of the lane, whatever its state (R56). -/
theorem withdrawn_withdraw (h : LaneLine s l line) (hl : (s.ctx c).lane = l) : Withdrawn s (s.withdraw c) l c line := by
  unfold State.withdraw
  cases hs : (s.ctx c).state with
  | queued => exact withdrawn_unqueue h hs hl
  | running =>
    subst hl
    exact withdrawn_vacate h hs rfl
  | preempted =>
    subst hl
    by_cases resume : (s.lane (s.ctx c).lane).sched.resume = some c
    · exact withdrawn_splice_resume h hs resume
    · exact withdrawn_splice_holder h hs rfl resume
  | suspended | draining | aborting | free =>
    exact withdrawn_self h (by simp [hs]) (by simp [hs]) (by simp [hs])

end

/-! ### Jobs ended one after another (R23, R101, R138) -/

/-- One job withdrawn and freed: ABORTED when it was ABORTING, else for the reason given (R23). -/
def State.endJob (reason : EndReason) (s : State) (c : CtxId) : State :=
  (s.withdraw c).freeCtx c (if (s.ctx c).state = .aborting then .aborted else reason)

/-- The JOB_END of a job that ends (R22). -/
def State.endNotice (s : State) (l : LaneId) (reason : EndReason) (c : CtxId) : NoticeBody :=
  .jobEnd (s.ctx c).tag l (if (s.ctx c).state = .aborting then .aborted else reason) (s.ctx c).acked

/-- What has changed once the jobs `cs` of a lane have ended in this order. -/
structure Ended (s t : State) (l : LaneId) (reason : EndReason) (cs : List CtxId) : Prop where
  lane : t.lane l = { s.lane l with sched := (t.lane l).sched }
  lanes : ∀ k, k ≠ l → t.lane k = s.lane k
  ready : ∀ k : ClassId, (t.lane l).sched.ready[k] = (s.lane l).sched.ready[k].filter (· ∉ cs)
  running : (t.lane l).sched.running = (s.lane l).sched.running.filter (· ∉ cs)
  gone : ∀ c, c ∈ cs → t.ctx c = {}
  kept : ∀ c, c ∉ cs → t.ctx c = { s.ctx c with link := (t.ctx c).link }
  linkKept : ∀ c, c ∉ cs → (∀ d, d ∈ cs → (s.ctx c).link ≠ some d) → t.ctx c = s.ctx c
  segments : ∀ c, c ∉ cs → t.jobSegments c = s.jobSegments c
  freeList : t.freeList = s.freeList ++ cs.flatMap fun c => (s.ctx c).segs
  cleared : ∀ e, e ∈ cs.flatMap (fun c => (s.ctx c).segs) → t.pool[e] = {}
  entries : ∀ e, e ∉ cs.flatMap (fun c => (s.ctx c).segs) → t.pool[e] = s.pool[e]
  pins : ∀ p : PageId, t.pins[p] = s.pins[p] - (cs.filter fun c => touches (s.jobSegments c) p.val).length
  notices : t.notices = (cs.map (s.endNotice l reason)).foldl postTo s.notices
  mem : t.mem = s.mem
  host : t.host = s.host
  heldInReset : t.heldInReset = s.heldInReset
  powerOnDue : t.powerOnDue = s.powerOnDue
  pending : t.pending = s.pending

theorem ended_nil (s : State) (l : LaneId) (reason : EndReason) : Ended s s l reason [] where
  lane := rfl
  lanes _ _ := rfl
  ready k := by simp
  running := by cases (s.lane l).sched.running <;> simp [Option.filter]
  gone c h := nomatch h
  kept _ _ := rfl
  linkKept _ _ _ := rfl
  segments _ _ := rfl
  freeList := by simp
  cleared e h := nomatch h
  entries _ _ := rfl
  pins p := by simp
  notices := rfl
  mem := rfl
  host := rfl
  heldInReset := rfl
  powerOnDue := rfl
  pending := rfl

section
variable {s t u : State} {l : LaneId} {reason : EndReason} {c : CtxId} {cs : List CtxId}

/-- What is read of a record that keeps all but its link. -/
theorem Ended.record (h : Ended s t l reason cs) {d : CtxId} (hd : d ∉ cs) : ∃ o, t.ctx d = { s.ctx d with link := o } :=
  ⟨_, h.kept d hd⟩

theorem Ended.segs (h : Ended s t l reason cs) {d : CtxId} (hd : d ∉ cs) : (t.ctx d).segs = (s.ctx d).segs := by
  obtain ⟨o, eq⟩ := h.record hd
  rw [eq]

theorem Ended.endNotice (h : Ended s t l reason cs) {d : CtxId} (hd : d ∉ cs) :
    t.endNotice l reason d = s.endNotice l reason d := by
  obtain ⟨o, eq⟩ := h.record hd
  simp only [State.endNotice, eq]

/-- One job ended, and then others. -/
theorem Ended.cons (first : Ended s t l reason [c]) (later : Ended t u l reason cs) (hc : c ∉ cs) :
    Ended s u l reason (c :: cs) := by
  have apart : ∀ d, d ∈ cs → d ∉ [c] := fun d hd => by simpa using fun e : d = c => hc (e ▸ hd)
  have split : ∀ d, d ∉ c :: cs → d ∉ [c] ∧ d ∉ cs := fun d hd => by simpa using hd
  have segs : cs.flatMap (fun d => (t.ctx d).segs) = cs.flatMap fun d => (s.ctx d).segs :=
    List.flatMap_congr fun d hd => first.segs (apart d hd)
  have both : ∀ d, (decide (d ∉ [c]) && decide (d ∉ cs)) = decide (d ∉ c :: cs) := fun d => by simp
  refine ⟨?_, fun k hk => (later.lanes k hk).trans (first.lanes k hk), fun k => ?_, ?_, fun d hd => ?_, fun d hd => ?_,
    fun d hd links => ?_, fun d hd => ?_, ?_, fun e he => ?_, fun e he => ?_, fun p => ?_, ?_, later.mem.trans first.mem,
    later.host.trans first.host, later.heldInReset.trans first.heldInReset, later.powerOnDue.trans first.powerOnDue,
    later.pending.trans first.pending⟩
  · rw [later.lane, first.lane]
  · rw [later.ready, first.ready, List.filter_filter]
    exact List.filter_congr fun d _ => by rw [Bool.and_comm, both]
  · rw [later.running, first.running, Option.filter_filter]
    exact congrArg (fun q => Option.filter q _) (funext fun d => both d)
  · rcases List.mem_cons.mp hd with rfl | hd
    · have cleared := first.gone d List.mem_cons_self
      rw [later.linkKept d hc fun x _ => by simp [cleared], cleared]
    · exact later.gone d hd
  · obtain ⟨h1, h2⟩ := split d hd
    rw [later.kept d h2, first.kept d h1]
  · obtain ⟨h1, h2⟩ := split d hd
    have same := first.linkKept d h1 fun x hx => links x (by simp at hx; simp [hx])
    rw [later.linkKept d h2 fun x hx => same ▸ links x (List.mem_cons_of_mem _ hx), same]
  · obtain ⟨h1, h2⟩ := split d hd
    rw [later.segments d h2, first.segments d h1]
  · rw [later.freeList, first.freeList, segs]
    simp
  · by_cases hl : e ∈ cs.flatMap fun d => (t.ctx d).segs
    · exact later.cleared e hl
    · rw [later.entries e hl]
      rw [segs] at hl
      rw [List.flatMap_cons, List.mem_append] at he
      exact first.cleared e (by simpa using he.resolve_right hl)
  · rw [List.flatMap_cons, List.mem_append, not_or] at he
    rw [later.entries e (segs.symm ▸ he.2), first.entries e (by simpa using he.1)]
  · have touching : (cs.filter fun d => touches (t.jobSegments d) p.val) = cs.filter fun d => touches (s.jobSegments d) p.val :=
      List.filter_congr fun d hd => by rw [first.segments d (apart d hd)]
    rw [later.pins, first.pins, touching, Nat.sub_sub, ← List.length_append, ← List.filter_append, List.singleton_append]
  · have notices : cs.map (t.endNotice l reason) = cs.map (s.endNotice l reason) :=
      List.map_congr_left fun d hd => first.endNotice (apart d hd)
    rw [later.notices, first.notices, notices]
    rfl

end

section
variable {s : State} {l : LaneId} {c : CtxId} {line : List CtxId} (reason : EndReason)

theorem ctx_endJob_ne {d : CtxId} (h : c ≠ d) : (s.endJob reason c).ctx d = (s.withdraw c).ctx d := ctx_freeCtx_ne _ _ h

theorem lane_endJob (k : LaneId) : (s.endJob reason c).lane k = (s.withdraw c).lane k := lane_freeCtx _ _ _ _

theorem jobSegments_withdraw (d : CtxId) : (s.withdraw c).jobSegments d = s.jobSegments d :=
  jobSegments_sameStore (.withdraw s c) d

theorem partitionLaw_withdraw (h : PartitionLaw s) : PartitionLaw (s.withdraw c) := by
  have same := SameStore.withdraw s c
  simpa only [PartitionLaw, same.freeList, same.segs] using h

/-- One job of the lane ended. -/
theorem ended_endJob (h : LaneLine s l line) (partition : PartitionLaw s) (hl : (s.ctx c).lane = l) :
    Ended s (s.endJob reason c) l reason [c] := by
  have w := withdrawn_withdraw h hl
  obtain ⟨o, b, record⟩ := w.record
  have others : ∀ d, d ∉ [c] → c ≠ d := fun d hd e => by simp [e] at hd
  have lane := fun k => lane_endJob (s := s) (c := c) reason k
  refine ⟨by rw [lane, ← w.lane], fun k hk => (lane k).trans (w.lanes k hk), fun k => ?_, ?_, fun d hd => ?_, fun d hd => ?_,
    fun d hd links => ?_, fun d hd => ?_, ?_, fun e he => ?_, fun e he => ?_, fun p => ?_, ?_, ?_, ?_, ?_, ?_, ?_⟩
  · rw [lane, w.ready]
    exact List.filter_congr fun d _ => by simp
  · rw [lane, w.running]
    exact congrArg (fun q => Option.filter q _) (funext fun d => by simp)
  · rw [List.mem_singleton.mp hd]
    exact ctx_freeCtx_same _ _ _
  · rw [ctx_endJob_ne reason (others d hd)]
    exact w.others d (others d hd).symm
  · rw [ctx_endJob_ne reason (others d hd)]
    exact w.linkKept d (others d hd).symm (links c List.mem_cons_self)
  · exact (jobSegments_freeCtx_ne (partitionLaw_withdraw partition) _ (others d hd)).trans (jobSegments_withdraw d)
  · simp [State.endJob, record, w.elsewhere.freeList]
  · rw [State.endJob, freeCtx_pool, record]
    exact clearEntries_mem (by simpa using he)
  · rw [State.endJob, freeCtx_pool, record, clearEntries_notMem (by simpa using he), w.elsewhere.pool]
  · rw [State.endJob, freeCtx_pins, unpinPages_get, jobSegments_withdraw, w.elsewhere.pins, List.filter_cons]
    split <;> rfl
  · rw [State.endJob, freeCtx_notices, record, w.elsewhere.notices]
    simp [State.endNotice, hl]
  · rw [State.endJob, freeCtx_mem, w.elsewhere.mem]
  · rw [State.endJob, freeCtx_host, w.elsewhere.host]
  · rw [State.endJob, freeCtx_heldInReset, w.elsewhere.heldInReset]
  · rw [State.endJob, freeCtx_powerOnDue, w.elsewhere.powerOnDue]
  · rw [State.endJob, freeCtx_pending, w.elsewhere.pending]

/-- The line closes behind a job that ends. -/
theorem laneLine_endJob (h : LaneLine s l line) (hl : (s.ctx c).lane = l) :
    LaneLine (s.endJob reason c) l (line.filter (· ≠ c)) := by
  have w := withdrawn_withdraw h hl
  have lane := lane_endJob (s := s) (c := c) reason l
  have gone : (s.endJob reason c).ctx c = {} := ctx_freeCtx_same _ _ _
  have kept : ∀ d, d ≠ c → ∃ o, (s.endJob reason c).ctx d = { s.ctx d with link := o } := fun d hd =>
    ⟨_, (ctx_endJob_ne reason hd.symm).trans (w.others d hd)⟩
  refine ⟨?_, h.nodup.filter _, (List.length_filter_le _ _).trans h.short, fun d => ?_, fun d => ?_, ?_, fun d k => ?_⟩
  · rw [lane]
    exact linked_congr (fun d hd => by rw [ctx_endJob_ne reason (by simpa using (List.mem_filter.mp hd).2 : d ≠ c).symm]) w.linked
  · by_cases hd : d = c
    · subst hd; simp [gone]
    · obtain ⟨o, eq⟩ := kept d hd
      simp [List.mem_filter, hd, h.members, eq]
  · by_cases hd : d = c
    · subst hd; simp [lane, w.running, gone, Option.filter_eq_some_iff]
    · obtain ⟨o, eq⟩ := kept d hd
      simp [lane, w.running, Option.filter_eq_some_iff, hd, h.running, eq]
  · rw [lane]
    exact w.exclusive
  · rw [lane, w.ready, List.mem_filter]
    by_cases hd : d = c
    · subst hd; simp [gone]
    · obtain ⟨o, eq⟩ := kept d hd
      rw [h.queued, eq]
      simp [hd]

end

/-- The jobs of a lane that an event picks (R101, R138). -/
def State.picked (s : State) (l : LaneId) (goes : Context → Bool) (c : CtxId) : Bool :=
  (s.ctx c).state != .free && (s.ctx c).lane == l && goes (s.ctx c)

theorem picked_lane {s : State} {l : LaneId} {goes : Context → Bool} {c : CtxId} (h : s.picked l goes c = true) :
    (s.ctx c).lane = l := by
  simp only [State.picked, Bool.and_eq_true, beq_iff_eq] at h
  exact h.1.2

/-- Ending jobs goes through the picked contexts; whether a later one is picked does not depend on the earlier ones. -/
theorem endJobs_eq {s : State} {l : LaneId} {line : List CtxId} {goes : Context → Bool} (reason : EndReason)
    (blind : ∀ x o, goes { x with link := o } = goes x) (h : LaneLine s l line) (partition : PartitionLaw s) :
    s.endJobs l goes reason = (allCtxs.filter (s.picked l goes)).foldl (State.endJob reason) s := by
  have general : ∀ cs : List CtxId, cs.Nodup → ∀ (s : State) (line : List CtxId), LaneLine s l line → PartitionLaw s →
      cs.foldl (fun s c => if s.picked l goes c then s.endJob reason c else s) s =
        (cs.filter (s.picked l goes)).foldl (State.endJob reason) s := by
    intro cs
    induction cs with
    | nil => exact fun _ _ _ _ _ => rfl
    | cons c cs ih =>
      intro distinct s line h partition
      rw [List.nodup_cons] at distinct
      rw [List.foldl_cons]
      split
      · next hc =>
        have hl := picked_lane hc
        have ended := ended_endJob reason h partition hl
        rw [ih distinct.2 _ _ (laneLine_endJob reason h hl) (partitionLaw_freeCtx (partitionLaw_withdraw partition) _ _),
          List.filter_cons_of_pos hc, List.foldl_cons]
        congr 1
        refine List.filter_congr fun d hd => ?_
        obtain ⟨o, eq⟩ := ended.record (d := d) (by simpa using fun e : d = c => distinct.1 (e ▸ hd))
        simp only [State.picked, eq]
        exact congrArg _ (blind _ _)
      · next hc => rw [ih distinct.2 _ _ h partition, List.filter_cons_of_neg hc]
  exact general allCtxs allCtxs_nodup s line h partition

/-- Any list of jobs of the lane ended in order. -/
theorem ended_foldl {l : LaneId} (reason : EndReason) {cs : List CtxId} (distinct : cs.Nodup) {s : State} {line : List CtxId}
    (h : LaneLine s l line) (partition : PartitionLaw s) (hl : ∀ c ∈ cs, (s.ctx c).lane = l) :
    Ended s (cs.foldl (State.endJob reason) s) l reason cs ∧
      LaneLine (cs.foldl (State.endJob reason) s) l (line.filter (· ∉ cs)) := by
  induction cs generalizing s line with
  | nil => exact ⟨ended_nil s l reason, by simpa using h⟩
  | cons c cs ih =>
    rw [List.nodup_cons] at distinct
    rw [List.forall_mem_cons] at hl
    have first := ended_endJob reason h partition hl.1
    have later := ih distinct.2 (laneLine_endJob reason h hl.1)
      (partitionLaw_freeCtx (partitionLaw_withdraw partition) _ _) fun d hd => by
        obtain ⟨o, eq⟩ := first.record (d := d) (by simpa using fun e : d = c => distinct.1 (e ▸ hd))
        rw [eq]
        exact hl.2 d hd
    refine ⟨first.cons later.1 distinct.1, ?_⟩
    have line_eq : (line.filter (· ≠ c)).filter (· ∉ cs) = line.filter (· ∉ c :: cs) := by
      rw [List.filter_filter]
      exact List.filter_congr fun d _ => by simp [Bool.and_comm]
    exact line_eq ▸ later.2

/-- The jobs of a lane that an event ends: what has changed, and the line that is left. -/
theorem endJobs_ended {s : State} {l : LaneId} {line : List CtxId} {goes : Context → Bool} (reason : EndReason)
    (blind : ∀ x o, goes { x with link := o } = goes x) (h : LaneLine s l line) (partition : PartitionLaw s) :
    Ended s (s.endJobs l goes reason) l reason (allCtxs.filter (s.picked l goes)) ∧
      LaneLine (s.endJobs l goes reason) l (line.filter (· ∉ allCtxs.filter (s.picked l goes))) := by
  rw [endJobs_eq reason blind h partition]
  exact ended_foldl reason (allCtxs_nodup.filter _) h partition fun c hc => picked_lane (List.mem_filter.mp hc).2

theorem mem_picked {s : State} {l : LaneId} {goes : Context → Bool} {c : CtxId} :
    c ∈ allCtxs.filter (s.picked l goes) ↔ s.picked l goes c = true := by simp [mem_allCtxs]

end Sys2Proof.Machine
end

-- ==== Proofs: Lane ends ====
section
/-! PROOFS. Lane ends: LANE_RESET and the station restart (R7, R22, R101, R102, R137 to R139). -/

namespace Sys2Proof.Machine

section
variable {s t : State} {l : LaneId} {line : List CtxId}

/-- A line is a matter of the lane's scheduler and of each context's state, lane, class and link. -/
theorem laneLine_of_seats (sched : (t.lane l).sched = (s.lane l).sched) (state : ∀ c, (t.ctx c).state = (s.ctx c).state)
    (lane : ∀ c, (t.ctx c).lane = (s.ctx c).lane) (cls : ∀ c, (t.ctx c).cls = (s.ctx c).cls)
    (link : ∀ c, (t.ctx c).link = (s.ctx c).link) (h : LaneLine s l line) : LaneLine t l line := by
  refine ⟨?_, h.nodup, h.short, fun c => ?_, fun c => ?_, ?_, fun c k => ?_⟩
  · rw [sched]
    exact linked_congr (fun d _ => link d) h.linked
  · rw [state, lane, h.members]
  · rw [state, lane, sched, h.running]
  · rw [sched]
    exact h.exclusive
  · rw [state, lane, cls, sched, h.queued]

theorem laneLine_congr (sched : (t.lane l).sched = (s.lane l).sched) (ctx : ∀ c, t.ctx c = s.ctx c) (h : LaneLine s l line) :
    LaneLine t l line :=
  laneLine_of_seats sched (fun c => by rw [ctx]) (fun c => by rw [ctx]) (fun c => by rw [ctx]) (fun c => by rw [ctx]) h

/-- The chain and the resume point are read off the line. -/
theorem LaneLine.resume_eq (h : LaneLine s l line) : (s.lane l).sched.resume =
    if (s.lane l).sched.running = none then (chainOf s l).head? else none := by
  have head := linked_head h.linked
  have eq := h.eq_chain
  split
  · next hr =>
    rw [hr] at head eq
    rw [← Option.none_or (o := (s.lane l).sched.resume), ← head, ← eq]
    rfl
  · next hr => exact h.exclusive (Option.isSome_iff_ne_none.mpr hr)

/-- A link in the line names a PREEMPTED job of the lane (R40). -/
theorem LaneLine.link_preempted {p c : CtxId} (h : LaneLine s l line) (hp : p ∈ line) (hl : (s.ctx p).link = some c) :
    (s.ctx c).state = .preempted ∧ (s.ctx c).lane = l := by
  obtain ⟨before, after, rfl⟩ := split_of_link h.linked hp hl
  obtain ⟨state | state, lane⟩ := (h.members c).mp (by simp)
  · have head := linked_head h.linked
    rw [(h.running c).mpr ⟨state, lane⟩, Option.some_or] at head
    have distinct := h.nodup
    cases before with
    | nil =>
      cases head
      simp at distinct
    | cons b bs =>
      cases head
      simp at distinct
  · exact ⟨state, lane⟩

/-- Filtering a line filters the running slot and the chain. -/
theorem chainOf_filter {line' : List CtxId} {keep : CtxId → Bool} (h : LaneLine s l line) (h' : LaneLine t l line')
    (eq : line' = line.filter keep) (running : (t.lane l).sched.running = (s.lane l).sched.running.filter keep) :
    chainOf t l = (chainOf s l).filter keep := by
  have split := h'.eq_chain
  rw [eq, ← h.eq_chain, List.filter_append, running] at split
  have slot : ((s.lane l).sched.running.filter keep).toList = (s.lane l).sched.running.toList.filter keep := by
    cases (s.lane l).sched.running with
    | none => rfl
    | some c => cases hk : keep c <;> simp [Option.filter, hk]
  rw [slot] at split
  exact List.append_cancel_left split

end

/-- A link names a job of the same lane (R40). -/
theorem link_lane {s : State} (h : ScheduleLaw s) {c d : CtxId} (hl : (s.ctx c).link = some d) :
    (s.ctx c).state ≠ .free ∧ (s.ctx d).lane = (s.ctx c).lane := by
  have placed : (s.ctx c).state = .running ∨ (s.ctx c).state = .preempted := by
    by_contra hn
    rw [not_or] at hn
    have none := (h.1 c).2.2.2.2.1 hn.1 hn.2
    rw [none] at hl
    cases hl
  have line := laneLine_of_scheduleLaw h (s.ctx c).lane
  refine ⟨by rcases placed with h | h <;> simp [h], (line.link_preempted ((line.members c).mpr ⟨placed, rfl⟩) hl).2⟩

/-! ### LANE_RESET (R101) -/

theorem lane_stopping_same (s : State) (l : LaneId) : (s.stopping l).lane l = { s.lane l with
    ctl := { (s.lane l).ctl with probeTimer := none, holdTimer := none, state := .down }
    tx := { (s.lane l).tx with ackTimer := none }
    pair := TxPair.idle } := by simp [State.stopping]

theorem lane_stopping_ne (s : State) {l k : LaneId} (h : l ≠ k) : (s.stopping l).lane k = s.lane k := by
  simp [State.stopping, h]

theorem lane_stopped_same (s : State) (l : LaneId) : (s.stopped l).lane l = { s.lane l with
    tx := Transmitter.initial
    ctl := { (s.lane l).ctl with window := 0, stationId := 0, probeCount := 0 }
    rcv := Receiver.initial } := by simp [State.stopped]

theorem lane_stopped_ne (s : State) {l k : LaneId} (h : l ≠ k) : (s.stopped l).lane k = s.lane k := by
  simp [State.stopped, h]

/-- A lane without a job has an empty scheduler. -/
theorem LaneLine.sched_empty {s : State} {l : LaneId} {line : List CtxId} (h : LaneLine s l line)
    (none_left : ∀ c, (s.ctx c).lane = l → (s.ctx c).state = .free) : (s.lane l).sched = Scheduler.empty := by
  have ready : ∀ k : ClassId, (s.lane l).sched.ready[k] = [] := fun k => List.eq_nil_iff_forall_not_mem.mpr fun c hc => by
    obtain ⟨queued, lane, -⟩ := (h.queued c k).mp hc
    simp [none_left c lane] at queued
  have nil : line = [] := List.eq_nil_iff_forall_not_mem.mpr fun c hc => by
    obtain ⟨state, lane⟩ := (h.members c).mp hc
    simp [none_left c lane] at state
  have linked := h.linked
  rw [nil] at linked
  obtain ⟨running, resume⟩ := Option.or_eq_none_iff.mp linked
  have queues : (s.lane l).sched.ready = Vector.replicate 4 [] := ready_ext fun k => by simp [ready k]
  cases hs : (s.lane l).sched with
  | mk ready' running' resume' =>
    rw [hs] at running resume queues
    dsimp only at running resume queues
    rw [running, resume, queues]
    rfl

/-- What LANE_RESET's end of jobs does: every job of the lane ends, and its scheduler is left empty. -/
theorem resetLane_ended {s : State} (l : LaneId) (schedule : ScheduleLaw s) (store : StoreLaw s) :
    Ended (s.stopping l) ((s.stopping l).endJobs l (fun _ => true) .laneReset) l .laneReset
        (allCtxs.filter fun c => (s.ctx c).state != .free && (s.ctx c).lane == l) ∧
      (((s.stopping l).endJobs l (fun _ => true) .laneReset).lane l).sched = Scheduler.empty := by
  have line := laneLine_congr (s := s) (t := s.stopping l) (by rw [lane_stopping_same]) (fun _ => rfl)
    (laneLine_of_scheduleLaw schedule l)
  obtain ⟨ended, left⟩ := endJobs_ended (goes := fun _ => true) .laneReset (fun _ _ => rfl) line store.2.1
  have gone_eq : allCtxs.filter ((s.stopping l).picked l fun _ => true) =
      allCtxs.filter fun c => (s.ctx c).state != .free && (s.ctx c).lane == l :=
    List.filter_congr fun c _ => Bool.and_true _
  rw [gone_eq] at ended
  refine ⟨ended, left.sched_empty fun c hc => ?_⟩
  by_cases gone : c ∈ allCtxs.filter fun c => (s.ctx c).state != .free && (s.ctx c).lane == l
  · rw [ended.gone c gone]
  · obtain ⟨o, eq⟩ := ended.record gone
    rw [eq] at hc ⊢
    by_contra live
    exact gone (List.mem_filter.mpr ⟨mem_allCtxs c, by simpa using ⟨live, hc⟩⟩)

/-- Settles O31: what the end of the lane's jobs changes, between the lane's values before and after it. -/
theorem laneResetEndsTheLanesJobs : Obligations.LaneResetEndsTheLanesJobs := by
  unfold Obligations.LaneResetEndsTheLanesJobs
  intro s seq lane l hl h schedule store x gone
  obtain ⟨ended, empty⟩ := resetLane_ended (s := s.taking) l (scheduleLaw_congr (s := s) rfl rfl schedule) store
  have gone_eq : (allCtxs.filter fun c => (s.taking.ctx c).state != .free && (s.taking.ctx c).lane == l) = gone := rfl
  rw [gone_eq] at ended
  have performed : performLaneReset [lane] s.taking = { state := s.taking.resetLane l, body := [statusCode .ok] } :=
    onLane_lane _ _ hl
  have reset_eq := resetLane_eq s.taking l
  generalize (s.taking.stopping l).endJobs l (fun _ => true) .laneReset = e at ended empty reset_eq
  have lane_eq := lane_stopped_same e l
  rw [reset_eq] at performed
  have ctx : ∀ c, ({ (e.stopped l).postLaneState l .laneReset with host := s.host } : State).ctx c = e.ctx c := fun _ => rfl
  have before : ∀ c, (s.taking.stopping l).ctx c = s.ctx c := fun _ => rfl
  refine ⟨{ (e.stopped l).postLaneState l .laneReset with host := s.host }, ?_, ?_, fun k hk => ?_,
    fun c hc => (ctx c).trans (ended.gone c hc), fun c hc => ?_, ended.freeList, ended.cleared, ended.entries, ended.pins, ?_, ended.mem, rfl,
    ended.heldInReset, ended.powerOnDue, ended.pending⟩
  · have answered := takeRequest_performs (perform := performLaneReset [lane]) h rfl (by rw [performed]; exact ended.host)
    rw [performed] at answered
    exact answered
  · refine lane_eq.trans ?_
    rw [ended.lane, empty, lane_stopping_same]
    rfl
  · exact (lane_stopped_ne _ hk.symm).trans ((ended.lanes k hk).trans (lane_stopping_ne _ hk.symm))
  · refine (ctx c).trans ((ended.linkKept c hc fun d hd link => hc ?_).trans (before c))
    rw [before] at link
    obtain ⟨live, same⟩ := link_lane schedule link
    simp only [gone, List.mem_filter, mem_allCtxs, true_and, Bool.and_eq_true, bne_iff_ne, beq_iff_eq] at hd ⊢
    exact ⟨live, same.symm.trans hd.2⟩
  · have state : ((e.stopped l).lane l).ctl.state = .down := by rw [lane_eq, ended.lane, lane_stopping_same]
    exact congrArg₂ postTo ended.notices (congrArg (NoticeBody.laneState l · _) state)

/-! ### The station restart (R137 to R139) -/

theorem lane_restarting_same (s : State) (l : LaneId) (window : Nat) (id : Word16) :
    (s.restarting l window id).lane l = { s.lane l with
      ctl := { (s.lane l).ctl with window := window, stationId := id, holdTimer := none }
      pair := { (s.lane l).pair with answers := [], frames := [] }
      tx := ⟨[], 0, [], none, 0, none, (s.lane l).tx.retxTotal⟩
      rcv := { (s.lane l).rcv with lastBit := none } } := by simp [State.restarting]

theorem lane_restarting_ne (s : State) {l k : LaneId} (window : Nat) (id : Word16) (h : l ≠ k) :
    (s.restarting l window id).lane k = s.lane k := by simp [State.restarting, h]

/-- What a station restart's end of jobs does: every started job of the lane ends. -/
theorem restarted_ended {s : State} (l : LaneId) (window : Nat) (id : Word16) {line : List CtxId} (h : LaneLine s l line)
    (store : StoreLaw s) :
    Ended (s.restarting l window id) ((s.restarting l window id).endJobs l (fun x => x.started) .stationRestart) l
        .stationRestart (allCtxs.filter (s.picked l fun x => x.started)) ∧
      LaneLine ((s.restarting l window id).endJobs l (fun x => x.started) .stationRestart) l
        (line.filter (· ∉ allCtxs.filter (s.picked l fun x => x.started))) :=
  endJobs_ended (goes := fun x => x.started) .stationRestart (fun _ _ => rfl)
    (laneLine_congr (s := s) (t := s.restarting l window id) (by rw [lane_restarting_same]) (fun _ => rfl) h) store.2.1

/-- A frame handed on is its owner's (R83, R84). -/
theorem onFrame_handsOn {s u : State} {l : LaneId} {frame : List Byte} {owner : State → Except Fault State}
    (h : handsOn s l frame u) : onFrame s l frame owner = outcomeOf (owner u) := by
  obtain ⟨held, handed⟩ := h
  simp [onFrame, unlessHeld, held, handed]

theorem takeHello_restart {s : State} {l : LaneId} {window : Byte} {id : Word16}
    (state : (s.lane l).ctl.state = .up ∨ (s.lane l).ctl.state = .held) (low : 1 ≤ window.toNat) (high : window.toNat ≤ 8) :
    s.takeHello l window id = s.stationRestart l window.toNat id := by
  unfold State.takeHello
  rw [if_neg (by simp only [Config.maxWindow]; omega)]
  rcases state with h | h <;> rw [h]

/-- Settles O39: the started jobs of the lane end, and what is left of its queues and line is what is left of each. -/
theorem stationRestartEndsStartedJobs : Obligations.StationRestartEndsStartedJobs := by
  unfold Obligations.StationRestartEndsStartedJobs
  intro s u l w id handed state low high schedule store x goes gone
  have line := laneLine_of_scheduleLaw schedule l
  obtain ⟨ended, left⟩ := restarted_ended l w.toNat id line store
  have restarts : exec (.hello l w id) s = .next ((u.restarted l w.toNat id).select l) :=
    (onFrame_handsOn handed).trans (congrArg Host.Outcome.next (takeHello_restart state low high))
  have gone_eq : allCtxs.filter (u.picked l fun x => x.started) = gone := rfl
  have keep : ∀ c, decide (c ∉ gone) = !goes c := fun c => by simp [gone, mem_allCtxs]
  rw [gone_eq] at ended left
  unfold State.restarted at restarts
  have ctx : ∀ c, (u.restarting l w.toNat id).ctx c = u.ctx c := fun _ => rfl
  have kept := fun c hc => ended.kept c hc
  have linkKept := fun c hc => ended.linkKept c hc
  simp only [ctx] at kept linkKept
  generalize (u.restarting l w.toNat id).endJobs l (fun x => x.started) .stationRestart = e at ended left restarts kept linkKept
  have lane : ((e.modCtl l fun c => { c with state := .up }).postLaneState l .stationRestart).lane l =
      { e.lane l with ctl := { (e.lane l).ctl with state := .up } } := by rw [lane_postLaneState, lane_modCtl_same]
  have running : (e.lane l).sched.running = x.sched.running.filter fun c => !goes c := by
    rw [ended.running, lane_restarting_same]
    exact congrArg (fun q => Option.filter q _) (funext keep)
  have left' := laneLine_congr (s := e) (t := (e.modCtl l fun c => { c with state := .up }).postLaneState l .stationRestart)
    (by rw [lane]) (fun _ => rfl) left
  refine ⟨_, restarts, ?_, fun k => ?_, ?_, ?_, ?_, fun k hk => ?_, fun c hc => ended.gone c hc, kept, linkKept,
    ended.freeList, ended.cleared, ended.entries, ended.pins, ?_, ended.mem, ended.host, ended.heldInReset, ended.powerOnDue,
    ended.pending⟩
  · rw [lane]
    rw [ended.lane, lane_restarting_same]
  · rw [lane, ended.ready, lane_restarting_same]
    exact List.filter_congr fun c _ => keep c
  · rw [lane, running]
  · exact chainOf_filter line left' (List.filter_congr fun c _ => keep c) (by rw [lane, running])
  · exact left'.resume_eq
  · rw [lane_postLaneState, lane_modCtl_ne _ _ hk.symm, ended.lanes k hk, lane_restarting_ne _ _ _ hk.symm]
  · have state : ((e.modCtl l fun c => { c with state := .up }).lane l).ctl.state = .up := by rw [lane_modCtl_same]
    exact congrArg₂ postTo ended.notices (congrArg (NoticeBody.laneState l · _) state)

end Sys2Proof.Machine
end

-- ==== Proofs: Flow ====
section
/-! PROOFS. Flow: the frames in flight of every job run from its acked to its sent position (R11, R12, R75, R106). -/

namespace Sys2Proof.Machine

/-! ### Frames that stand one behind another (R12) -/

/-- Where the frame after a frame stands (R12, R108). -/
def frameAfter (k f : Nat) (last : Bool) : Nat × Nat := if last then (k + 1, 0) else (k, f + 1)

theorem runsTo_nil {p q : Nat × Nat} : runsTo p [] q = true ↔ p = q := by simp [runsTo]

theorem runsTo_cons {p q : Nat × Nat} {k f : Nat} {last : Bool} {rest : List (Nat × Nat × Bool)} :
    runsTo p ((k, f, last) :: rest) q = true ↔ p = (k, f) ∧ runsTo (frameAfter k f last) rest q = true := by
  simp [runsTo, frameAfter]

theorem runsTo_append_frame {p : Nat × Nat} {frames : List (Nat × Nat × Bool)} {k f : Nat} {last : Bool} :
    runsTo p frames (k, f) = true → runsTo p (frames ++ [(k, f, last)]) (frameAfter k f last) = true := by
  induction frames generalizing p with
  | nil =>
    intro h
    exact runsTo_cons.mpr ⟨runsTo_nil.mp h, runsTo_nil.mpr rfl⟩
  | cons x xs ih =>
    obtain ⟨k', f', last'⟩ := x
    rw [List.cons_append, runsTo_cons, runsTo_cons]
    exact fun h => ⟨h.1, ih h.2⟩

/-- Frames run forward: to a later segment, or to a later frame of the same one. -/
theorem runsTo_forward {p q : Nat × Nat} {frames : List (Nat × Nat × Bool)} (h : runsTo p frames q = true) :
    p.1 < q.1 ∨ (p.1 = q.1 ∧ p.2 + (if frames = [] then 0 else 1) ≤ q.2) := by
  induction frames generalizing p with
  | nil =>
    cases runsTo_nil.mp h
    exact .inr ⟨rfl, Nat.le_refl _⟩
  | cons x xs ih =>
    obtain ⟨k, f, last⟩ := x
    obtain ⟨rfl, later⟩ := runsTo_cons.mp h
    have later := ih later
    unfold frameAfter at later
    simp only [reduceCtorEq, if_false]
    cases last <;> simp only [if_true, Bool.false_eq_true, if_false] at later <;> split at later <;> omega

/-- Frames from the beginning of a job to its beginning: none. -/
theorem frames_nil_of_runsTo_zero {f : Nat} {frames : List (Nat × Nat × Bool)} (h : runsTo (0, f) frames (0, 0) = true) :
    frames = [] := by
  have forward := runsTo_forward h
  by_contra hne
  rw [if_neg hne] at forward
  dsimp only at forward
  omega

theorem framesOf_cons (e : InFlight) (es : List InFlight) (c : CtxId) :
    framesOf (e :: es) c = framesOf [e] c ++ framesOf es c := by
  rw [← List.singleton_append, framesOf, List.filterMap_append]
  rfl

theorem framesOf_append (es es' : List InFlight) (c : CtxId) : framesOf (es ++ es') c = framesOf es c ++ framesOf es' c :=
  List.filterMap_append ..

theorem framesOf_ne {e : InFlight} {c : CtxId} (h : e.ctx ≠ c) : framesOf [e] c = [] := by
  unfold framesOf
  cases hw : e.what <;> simp [hw, h]

@[simp] theorem framesOf_data (q : BitVec 4) (c : CtxId) (k f : Nat) (flags : DataFlags) :
    framesOf [⟨q, c, .data k f flags⟩] c = [(k, f, flags.last)] := by simp [framesOf]

@[simp] theorem framesOf_cancel (q : BitVec 4) (c d : CtxId) : framesOf [⟨q, c, .cancel⟩] d = [] := by simp [framesOf]

/-- A job without entries has no frames in flight. -/
theorem framesOf_nil {es : List InFlight} {c : CtxId} (h : ∀ e ∈ es, e.ctx ≠ c) : framesOf es c = [] := by
  induction es with
  | nil => rfl
  | cons e es ih =>
    rw [List.forall_mem_cons] at h
    rw [framesOf_cons, framesOf_ne h.1, ih h.2, List.append_nil]

/-- A job without frames in flight has no entry but a CANCEL. -/
theorem cancel_of_framesOf_nil {es : List InFlight} {c : CtxId} (h : framesOf es c = []) {e : InFlight} (he : e ∈ es)
    (hc : e.ctx = c) : e.what = .cancel := by
  have none_of := List.filterMap_eq_nil_iff.mp h e he
  cases hw : e.what with
  | cancel => rfl
  | data k f flags => simp [hw, hc] at none_of

/-! ### The flow of frames, by what it depends on -/

/-- The states of a job that is to be cut (R9). -/
def Seated (st : JobState) : Prop := st = .queued ∨ st = .running ∨ st = .preempted ∨ st = .suspended

/-- The segment exists, and the frame begins inside it (R108). -/
def FrameIn (segment : Nat → Option Segment) (payload k f : Nat) : Prop :=
  ∃ g, segment k = some g ∧ f * payload < g.length

/-- What the flow of frames asks of one job, given its frames in flight, the frames that exist, and whether its lane is UP or
HELD (R11, R12). -/
structure JobFlow (x : Context) (frames : List (Nat × Nat × Bool)) (inside : Nat → Nat → Prop) (open_ : Bool) : Prop where
  cleared : x.state = .free → x = {}
  runs : ∃ f, runsTo (x.acked, f) frames (x.sent, x.cut) = true
  sent_le : x.sent ≤ x.segCount
  resend_le : x.resend ≤ x.segCount
  cutInside : x.cut ≠ 0 → inside x.sent x.cut
  draining : x.state = .draining → x.sent = x.segCount ∧ x.acked < x.segCount
  seated : Seated x.state → x.sent < x.segCount
  cutIdle : x.state ≠ .running → x.state ≠ .aborting → x.cut = 0
  unstarted : x.started = false → x.acked = 0 ∧ x.sent = 0 ∧ x.cut = 0
  closed : open_ = false → x.cut = 0

/-- The law of the flow, from the contexts, their segments, the in-flight lists, the payload sizes and the open lanes. -/
structure Flow (ctx : CtxId → Context) (segment : CtxId → Nat → Option Segment) (flight : LaneId → List InFlight)
    (payload : LaneId → Nat) (open_ : LaneId → Bool) : Prop where
  entries : ∀ l, ∀ e ∈ flight l, (ctx e.ctx).state ≠ .free ∧ (ctx e.ctx).lane = l ∧
    ∀ k f flags, e.what = .data k f flags → FrameIn (segment e.ctx) (payload l) k f
  order : ∀ l, (flight l).Pairwise fun a b => a.what = .cancel → b.ctx ≠ a.ctx
  jobs : ∀ c, JobFlow (ctx c) (framesOf (flight (ctx c).lane) c) (FrameIn (segment c) (payload (ctx c).lane))
    (open_ (ctx c).lane)

def State.flight (s : State) (l : LaneId) : List InFlight := (s.lane l).tx.inFlight

def State.payload (s : State) (l : LaneId) : Nat := (s.lane l).ctl.config.payloadSize

def State.open_ (s : State) (l : LaneId) : Bool := selects (s.lane l).ctl.state

/-- The flow of a state, with its in-flight lists given. -/
def State.FlowWith (s : State) (flight : LaneId → List InFlight) : Prop := Flow s.ctx s.segmentAt flight s.payload s.open_

theorem frameExists_iff (s : State) (c : CtxId) (k f : Nat) :
    frameExists s c k f = true ↔ FrameIn (s.segmentAt c) (s.payload (s.ctx c).lane) k f := by
  unfold frameExists FrameIn State.payload
  cases s.segmentAt c k <;> simp

theorem flowLaw_iff (s : State) : FlowLaw s ↔ s.FlowWith s.flight := by
  constructor
  · rintro ⟨entries, order, jobs⟩
    refine ⟨fun l e he => ?_, order, fun c => ?_⟩
    · obtain ⟨live, lane, frames⟩ := entries l e he
      refine ⟨live, lane, fun k f flags hw => ?_⟩
      rw [← lane]
      exact (frameExists_iff s _ k f).mp (frames k f flags hw)
    · obtain ⟨h1, h2, h3, h4, h5, h6, h7, h8, h9, h10⟩ := jobs c
      exact ⟨h1, h2, h3, h4, fun hc => (frameExists_iff s c _ _).mp (h5 hc), h6, h7, h8, h9, h10⟩
  · rintro ⟨entries, order, jobs⟩
    refine ⟨fun l e he => ?_, order, fun c => ?_⟩
    · obtain ⟨live, lane, frames⟩ := entries l e he
      refine ⟨live, lane, fun k f flags hw => ?_⟩
      rw [frameExists_iff, lane]
      exact frames k f flags hw
    · obtain ⟨h1, h2, h3, h4, h5, h6, h7, h8, h9, h10⟩ := jobs c
      exact ⟨h1, h2, h3, h4, fun hc => (frameExists_iff s c _ _).mpr (h5 hc), h6, h7, h8, h9, h10⟩

/-- The other laws of jobs follow from the flow (R8, R11, R106). -/
theorem laws_of_flowLaw {s : State} (h : FlowLaw s) : PositionLaw s ∧ FlightLaw s ∧ ClearedLaw s := by
  have flow := (flowLaw_iff s).mp h
  refine ⟨fun c => ?_, fun l e he => ⟨(h.1 l e he).1, (h.1 l e he).2.1⟩, fun c => (flow.jobs c).cleared⟩
  have job := flow.jobs c
  obtain ⟨f, runs⟩ := job.runs
  have forward := runsTo_forward runs
  dsimp only at forward
  exact ⟨by omega, job.sent_le, fun hd => (job.draining hd).1, job.resend_le⟩

/-- A cleared record without frames. -/
theorem jobFlow_cleared (inside : Nat → Nat → Prop) (open_ : Bool) : JobFlow {} [] inside open_ :=
  ⟨fun _ => rfl, ⟨0, rfl⟩, Nat.le_refl 0, Nat.le_refl 0, fun h => absurd rfl h, nofun, fun h => by simp [Seated] at h,
    fun _ _ => rfl, fun _ => ⟨rfl, rfl, rfl⟩, fun _ => rfl⟩

section
variable {ctx ctx' : CtxId → Context} {segment segment' : CtxId → Nat → Option Segment} {flight flight' : LaneId → List InFlight}
  {payload : LaneId → Nat} {open_ : LaneId → Bool}

/-- A job that is FREE has no entry. -/
theorem Flow.no_entry (h : Flow ctx segment flight payload open_) {c : CtxId} (free : (ctx c).state = .free) (l : LaneId) :
    ∀ e ∈ flight l, e.ctx ≠ c := fun e he eq => (h.entries l e he).1 (eq ▸ free)

/-- One job changes, with its own entries: the others keep their flow. -/
theorem Flow.one (h : Flow ctx segment flight payload open_) (c : CtxId) (others : ∀ d, d ≠ c → ctx' d = ctx d)
    (segments : ∀ d, d ≠ c → segment' d = segment d)
    (frames : ∀ l d, d ≠ c → framesOf (flight' l) d = framesOf (flight l) d)
    (rest : ∀ l, ∀ e ∈ flight' l, e.ctx ≠ c → e ∈ flight l)
    (own : ∀ l, ∀ e ∈ flight' l, e.ctx = c → (ctx' c).state ≠ .free ∧ (ctx' c).lane = l ∧
      ∀ k f flags, e.what = .data k f flags → FrameIn (segment' c) (payload l) k f)
    (order : ∀ l, (flight' l).Pairwise fun a b => a.what = .cancel → b.ctx ≠ a.ctx)
    (job : JobFlow (ctx' c) (framesOf (flight' (ctx' c).lane) c) (FrameIn (segment' c) (payload (ctx' c).lane))
      (open_ (ctx' c).lane)) : Flow ctx' segment' flight' payload open_ := by
  refine ⟨fun l e he => ?_, order, fun d => ?_⟩
  · by_cases hc : e.ctx = c
    · rw [hc]
      exact own l e he hc
    · rw [others _ hc, segments _ hc]
      exact h.entries l e (rest l e he hc)
  · by_cases hd : d = c
    · rw [hd]
      exact job
    · rw [others d hd, segments d hd, frames _ d hd]
      exact h.jobs d

end

end Sys2Proof.Machine
end

-- ==== Proofs: Seats ====
section
/-! PROOFS. Seats: changes of place that leave the flow of frames (R38 to R57). -/

namespace Sys2Proof.Machine

/-- A job changes its state, its link and its pending suspension alone, in a way that the flow of frames allows: among the
states of a job that is to be cut, leaving RUNNING at a boundary only, or to ABORTING. -/
structure Moves (x y : Context) : Prop where
  same : y = { x with state := y.state, link := y.link, suspendPending := y.suspendPending }
  free : x.state = .free → y = x
  state : y.state = x.state ∨ (x.state ≠ .free ∧ y.state = .aborting) ∨
    (Seated x.state ∧ Seated y.state ∧ (y.state ≠ .running → x.cut = 0))

namespace Moves

theorem refl (x : Context) : Moves x x := ⟨rfl, fun _ => rfl, .inl rfl⟩

theorem trans {x y z : Context} (h : Moves x y) (h' : Moves y z) : Moves x z := by
  have cut : y.cut = x.cut := by rw [h.same]
  refine ⟨by rw [h'.same, h.same], fun free => ?_, ?_⟩
  · have eq := h.free free
    rw [h'.free (eq ▸ free), eq]
  · rcases h'.state with s' | ⟨live, s'⟩ | ⟨seated, s', cut'⟩
    · rw [s']
      exact h.state
    · exact .inr (.inl ⟨fun free => live (h.free free ▸ free), s'⟩)
    · rcases h.state with s | ⟨-, s⟩ | ⟨seated', -, -⟩
      · exact .inr (.inr ⟨s ▸ seated, s', cut ▸ cut'⟩)
      · rw [s] at seated
        simp [Seated] at seated
      · exact .inr (.inr ⟨seated', s', cut ▸ cut'⟩)

/-- A change of link and pending suspension alone. -/
theorem of_link {x : Context} (o : Option CtxId) (b : Bool) (live : x.state ≠ .free) :
    Moves x { x with link := o, suspendPending := b } := ⟨rfl, fun free => absurd free live, .inl rfl⟩

theorem to_running {x : Context} (o : Option CtxId) (seated : Seated x.state) :
    Moves x { x with state := .running, link := o } :=
  ⟨rfl, fun free => by simp [free, Seated] at seated, .inr (.inr ⟨seated, .inr (.inl rfl), fun h => absurd rfl h⟩)⟩

theorem to_seat {x : Context} {st : JobState} (seated : Seated x.state) (seated' : Seated st) (cut : x.cut = 0) :
    Moves x { x with state := st } :=
  ⟨rfl, fun free => by simp [free, Seated] at seated, .inr (.inr ⟨seated, seated', fun _ => cut⟩)⟩

theorem to_aborting {x : Context} (live : x.state ≠ .free) : Moves x { x with state := .aborting } :=
  ⟨rfl, fun free => absurd free live, .inr (.inl ⟨live, rfl⟩)⟩

theorem jobFlow {x y : Context} {frames : List (Nat × Nat × Bool)} {inside : Nat → Nat → Prop} {o o' : Bool} (h : Moves x y)
    (closed : o' = false → o = false) (job : JobFlow x frames inside o) : JobFlow y frames inside o' := by
  obtain ⟨same, free, state⟩ := h
  have stays : ¬ Seated y.state → y.state ≠ .aborting → y.state = x.state := fun hs ha => by
    rcases state with h | ⟨-, h⟩ | ⟨-, h, -⟩
    · exact h
    · exact absurd h ha
    · exact absurd h hs
  have was_free : y.state = .free → x.state = .free := fun hy => by
    rw [← stays (by simp [hy, Seated]) (by simp [hy])]
    exact hy
  have seat : Seated y.state → Seated x.state := fun hs => by
    rcases state with h | ⟨-, h⟩ | ⟨h, -, -⟩
    · exact h ▸ hs
    · simp [h, Seated] at hs
    · exact h
  have idle : y.state ≠ .running → y.state ≠ .aborting → x.cut = 0 := fun hr ha => by
    rcases state with h | ⟨-, h⟩ | ⟨-, -, h⟩
    · exact job.cutIdle (h ▸ hr) (h ▸ ha)
    · exact absurd h ha
    · exact h hr
  have was_draining : y.state = .draining → x.state = .draining := fun hd => by
    rw [← stays (by simp [hd, Seated]) (by simp [hd])]
    exact hd
  refine ⟨fun hf => ?_, ?_, ?_, ?_, ?_, fun hd => ?_, fun hs => ?_, fun hr ha => ?_, fun hu => ?_, fun hc => ?_⟩
  · rw [free (was_free hf)]
    exact job.cleared (was_free hf)
  all_goals rw [same]
  · exact job.runs
  · exact job.sent_le
  · exact job.resend_le
  · exact job.cutInside
  · exact job.draining (was_draining hd)
  · exact job.seated (seat hs)
  · exact idle hr ha
  · rw [same] at hu
    exact job.unstarted hu
  · exact job.closed (closed hc)

end Moves

/-- Jobs change places, lanes may open, and what the flow of frames depends on otherwise stays. -/
structure Reseats (s t : State) : Prop where
  pool : t.pool = s.pool
  flight : ∀ l, t.flight l = s.flight l
  payload : ∀ l, s.open_ l = true → t.payload l = s.payload l
  opened : ∀ l, s.open_ l = true → t.open_ l = true
  jobs : ∀ c, Moves (s.ctx c) (t.ctx c)

namespace Reseats

theorem refl (s : State) : Reseats s s := ⟨rfl, fun _ => rfl, fun _ _ => rfl, fun _ h => h, fun _ => .refl _⟩

theorem trans {s t u : State} (h : Reseats s t) (h' : Reseats t u) : Reseats s u :=
  ⟨h'.pool.trans h.pool, fun l => (h'.flight l).trans (h.flight l),
    fun l ho => (h'.payload l (h.opened l ho)).trans (h.payload l ho), fun l ho => h'.opened l (h.opened l ho),
    fun c => (h.jobs c).trans (h'.jobs c)⟩

theorem of_alike {s t : State} (h : Alike s t) : Reseats s t :=
  ⟨h.pool, fun l => by rw [State.flight, h.tx]; rfl, fun l _ => by rw [State.payload, h.ctl]; rfl,
    fun l ho => by rw [State.open_, h.ctl]; exact ho, fun c => by rw [ctx_congr h.ctxs]; exact .refl _⟩

theorem post (s : State) (b : NoticeBody) : Reseats s (s.post b) := of_alike (.of_fields rfl rfl rfl rfl rfl)

theorem modLane (s : State) (l : LaneId) {f : Lane → Lane} (tx : (f (s.lane l)).tx.inFlight = (s.lane l).tx.inFlight)
    (payload : selects (s.lane l).ctl.state = true →
      (f (s.lane l)).ctl.config.payloadSize = (s.lane l).ctl.config.payloadSize)
    (opened : selects (s.lane l).ctl.state = true → selects (f (s.lane l)).ctl.state = true) : Reseats s (s.modLane l f) := by
  have changed : ∀ k, (k = l ∧ (s.modLane l f).lane k = f (s.lane k)) ∨ (s.modLane l f).lane k = s.lane k := fun k => by
    by_cases hk : k = l
    · rw [hk]
      exact .inl ⟨rfl, lane_modLane_same s l f⟩
    · exact .inr (lane_modLane_ne s f (Ne.symm hk))
  refine ⟨rfl, fun k => ?_, fun k ho => ?_, fun k ho => ?_, fun c => .refl _⟩
  · rcases changed k with ⟨rfl, eq⟩ | eq <;> rw [State.flight, eq]
    · exact tx
    · rfl
  · rcases changed k with ⟨rfl, eq⟩ | eq <;> rw [State.payload, eq]
    · exact payload ho
    · rfl
  · rcases changed k with ⟨rfl, eq⟩ | eq <;> rw [State.open_, eq]
    · exact opened ho
    · exact ho

theorem modSched (s : State) (l : LaneId) (f : Scheduler → Scheduler) : Reseats s (s.modSched l f) :=
  modLane s l rfl (fun _ => rfl) id

theorem modTx (s : State) (l : LaneId) {f : Transmitter → Transmitter}
    (tx : (f (s.lane l).tx).inFlight = (s.lane l).tx.inFlight) : Reseats s (s.modTx l f) := modLane s l tx (fun _ => rfl) id

theorem modCtl (s : State) (l : LaneId) {f : Controller → Controller}
    (payload : selects (s.lane l).ctl.state = true →
      (f (s.lane l).ctl).config.payloadSize = (s.lane l).ctl.config.payloadSize)
    (opened : selects (s.lane l).ctl.state = true → selects (f (s.lane l).ctl).state = true) : Reseats s (s.modCtl l f) :=
  modLane s l rfl payload opened

theorem modPair (s : State) (l : LaneId) (f : TxPair → TxPair) : Reseats s (s.modPair l f) := of_alike (.modPair s l f)

theorem modRcv (s : State) (l : LaneId) (f : Receiver → Receiver) : Reseats s (s.modRcv l f) := of_alike (.modRcv s l f)

theorem modCtx (s : State) (c : CtxId) {f : Context → Context} (h : Moves (s.ctx c) (f (s.ctx c))) :
    Reseats s (s.modCtx c f) := by
  refine ⟨rfl, fun _ => rfl, fun _ _ => rfl, fun _ ho => ho, fun d => ?_⟩
  rw [ctx_modCtx]
  split
  · next hd => exact hd ▸ h
  · exact .refl _

end Reseats

theorem segmentAt_congr {s t : State} {c : CtxId} (hp : t.pool = s.pool) (hc : (t.ctx c).segs = (s.ctx c).segs) :
    t.segmentAt c = s.segmentAt c := by
  funext k
  simp only [State.segmentAt, State.jobSegments, hp, hc]

/-- Changes of place keep the flow of frames; a lane that is neither UP nor HELD has nothing in flight. -/
theorem flowWith_reseats {s t : State} (h : s.FlowWith s.flight) (idle : ∀ l, s.open_ l = false → s.flight l = [])
    (moves : Reseats s t) : t.FlowWith t.flight := by
  have lane : ∀ c, (t.ctx c).lane = (s.ctx c).lane := fun c => by rw [(moves.jobs c).same]
  have segment : ∀ c, t.segmentAt c = s.segmentAt c := fun c =>
    segmentAt_congr moves.pool (by rw [(moves.jobs c).same])
  have flight : t.flight = s.flight := funext moves.flight
  have closed : ∀ l, t.open_ l = false → s.open_ l = false := fun l hc => by
    cases ho : s.open_ l
    · rfl
    · simp [moves.opened l ho] at hc
  unfold State.FlowWith
  rw [flight]
  refine ⟨fun l e he => ?_, h.order, fun c => ?_⟩
  · obtain ⟨live, own, frames⟩ := h.entries l e he
    have ho : s.open_ l = true := by
      by_contra hc
      rw [idle l (by simpa using hc)] at he
      cases he
    refine ⟨fun free => ?_, (lane _).trans own, fun k f flags hw => ?_⟩
    · rcases (moves.jobs e.ctx).state with same | ⟨-, ab⟩ | ⟨-, seated, -⟩
      · exact live (same ▸ free)
      · simp [ab] at free
      · simp [free, Seated] at seated
    · rw [segment, moves.payload l ho]
      exact frames k f flags hw
  · have job := (moves.jobs c).jobFlow (closed _) (h.jobs c)
    rw [lane, segment]
    refine { job with cutInside := fun hc => ?_ }
    have ho : s.open_ (s.ctx c).lane = true := by
      by_contra hn
      refine hc ?_
      rw [(moves.jobs c).same]
      exact (h.jobs c).closed (by simpa using hn)
    rw [moves.payload _ ho]
    exact job.cutInside hc

/-! ### Selection (R42 to R44) -/

/-- The candidates of a lane: QUEUED jobs in its queues, a PREEMPTED one at its resume point (R39, R42). -/
structure Selectable (s : State) (l : LaneId) : Prop where
  queued : ∀ (k : ClassId) c, c ∈ (s.lane l).sched.ready[k] → (s.ctx c).state = .queued
  resume : ∀ r, (s.lane l).sched.resume = some r → (s.ctx r).state = .preempted

theorem bestReady_mem {ready : Vector (List CtxId) 4} {k : ClassId} {c : CtxId} (h : bestReady ready = some (k, c)) :
    c ∈ ready[k] := by
  obtain ⟨q, hq⟩ := bestReady_some h
  simp [hq]

/-- Selection moves one candidate into the slot. -/
theorem Reseats.select {s : State} {l : LaneId} (h : Selectable s l) : Reseats s (s.select l) := by
  rcases select_cases s l with ⟨eq, -⟩ | ⟨-, -, ⟨k, c, best, eq, -⟩ | ⟨r, resume, eq, -⟩⟩ <;> rw [eq]
  · exact .refl s
  · unfold State.takeHead
    refine (modSched s l _).trans (modCtx _ c ?_)
    exact .to_running _ (.inl (h.queued k c (bestReady_mem best)))
  · unfold State.takeResume
    refine (modSched s l _).trans (modCtx _ r ?_)
    exact .to_running _ (.inr (.inr (.inl (h.resume r resume))))

theorem Reseats.selectIf {s : State} {l : LaneId} (was : JobState) (h : was = .running → Selectable s l) :
    Reseats s (s.selectIf was l) := by
  unfold State.selectIf
  split
  · next hr => exact .select (h hr)
  · exact .refl s

section
variable {s t : State} {l : LaneId} {line : List CtxId}

theorem LaneLine.selectable (h : LaneLine s l line) : Selectable s l := by
  refine ⟨fun k c hc => ((h.queued c k).mp hc).1, fun r hr => ?_⟩
  have idle : (s.lane l).sched.running = none := by
    cases hn : (s.lane l).sched.running with
    | none => rfl
    | some c => simp [h.exclusive (by simp [hn])] at hr
  have head := linked_head h.linked
  rw [idle, Option.none_or, hr] at head
  obtain ⟨state | state, lane⟩ := (h.members r).mp (List.mem_of_head? head)
  · have slot := (h.running r).mpr ⟨state, lane⟩
    rw [idle] at slot
    cases slot
  · exact state

/-- After the running job has left the slot, its link names the candidate at the resume point (R52). -/
theorem LaneLine.selectable_vacated {c : CtxId} (h : LaneLine s l line) (hr : (s.lane l).sched.running = some c)
    (sched : (t.lane l).sched = { (s.lane l).sched with running := none, resume := (s.ctx c).link })
    (others : ∀ d, d ≠ c → (t.ctx d).state = (s.ctx d).state) : Selectable t l := by
  obtain ⟨runs, lane⟩ := (h.running c).mp hr
  refine ⟨fun k d hd => ?_, fun r link => ?_⟩ <;> rw [sched] at *
  · have queued := ((h.queued d k).mp hd).1
    rw [others d (by rintro rfl; simp [runs] at queued), queued]
  · have waits := (h.link_preempted ((h.members c).mpr ⟨.inl runs, lane⟩) link).1
    rw [others r (by rintro rfl; simp [runs] at waits), waits]

end

/-! ### Withdrawal and boundaries (R46 to R56) -/

section
variable {s t : State} {l : LaneId} {c : CtxId} {line : List CtxId}

/-- Withdrawal changes links alone; a FREE record has none. -/
theorem Reseats.withdrawn (w : Withdrawn s t l c line) (live : (s.ctx c).state ≠ .free)
    (cleared : ∀ d, (s.ctx d).state = .free → s.ctx d = {}) : Reseats s t := by
  have lane : ∀ k, (t.lane k).tx = (s.lane k).tx ∧ (t.lane k).ctl = (s.lane k).ctl := fun k => by
    by_cases hk : k = l
    · rw [hk, w.lane]
      exact ⟨rfl, rfl⟩
    · rw [w.lanes k hk]
      exact ⟨rfl, rfl⟩
  refine ⟨w.elsewhere.pool, fun k => by rw [State.flight, (lane k).1]; rfl, fun k _ => by rw [State.payload, (lane k).2]; rfl,
    fun k ho => by rw [State.open_, (lane k).2]; exact ho, fun d => ?_⟩
  by_cases hd : d = c
  · subst hd
    obtain ⟨o, b, eq⟩ := w.record
    rw [eq]
    exact .of_link o b live
  · by_cases free : (s.ctx d).state = .free
    · rw [w.linkKept d hd (by rw [cleared d free]; simp)]
      exact .refl _
    · rw [w.others d hd]
      exact .of_link _ _ free

theorem Reseats.vacate (s : State) (l : LaneId) (c : CtxId) (live : (s.ctx c).state ≠ .free) :
    Reseats s (s.vacate l c) := by
  unfold State.vacate
  refine (modSched s l _).trans (modCtx _ c ?_)
  exact .of_link _ _ live

/-- A boundary moves the running job, which no segment keeps cut, and what selection or preemption seats instead. -/
theorem Reseats.evalBoundary (h : LaneLine s l line) (cut : ∀ c, (s.lane l).sched.running = some c → (s.ctx c).cut = 0) :
    Reseats s (s.evalBoundary l) := by
  rcases evalBoundary_cases s l with eq | ⟨c, hr, -, ⟨-, eq⟩ | ⟨-, k, d, best, -, eq⟩⟩ <;> rw [eq]
  · exact .refl s
  all_goals
    have runs := ((h.running c).mp hr).1
    have seated : Seated (s.ctx c).state := .inr (.inl runs)
  · unfold State.suspendAtBoundary
    have vacated := vacate s l c (by simp [runs])
    refine vacated.trans ((modCtx _ c ?_).trans ((post _ _).trans (select ?_)))
    · rw [ctx_vacate_same]
      exact .to_seat seated (.inr (.inr (.inr rfl))) (cut c hr)
    · refine h.selectable_vacated hr ?_ fun e he => ?_
      · rw [lane_post, lane_modCtx, lane_vacate_same]
      · rw [ctx_post, ctx_modCtx_ne _ _ he.symm, ctx_vacate_ne he.symm]
  · have queued := ((h.queued d k).mp (bestReady_mem best)).1
    have hne : c ≠ d := by rintro rfl; simp [runs] at queued
    unfold State.preempt
    refine (modCtx s c (.to_seat seated (.inr (.inr (.inl rfl))) (cut c hr))).trans ((modSched _ l _).trans (modCtx _ d ?_))
    rw [ctx_modSched, ctx_modCtx_ne _ _ hne]
    exact .to_running _ (.inl queued)

end

end Sys2Proof.Machine
end

-- ==== Proofs: Traffic ====
section
/-! PROOFS. Traffic: what moves a job's positions or the frames in flight keeps the flow of frames (R11, R12, R106, R116). -/

namespace Sys2Proof.Machine

/-- The flow is a matter of the contexts, the pool, the payload sizes and the open lanes, beside the in-flight lists. -/
theorem flowWith_congr {s t : State} {flight : LaneId → List InFlight} (hc : t.ctxs = s.ctxs) (hp : t.pool = s.pool)
    (payload : t.payload = s.payload) (open_ : t.open_ = s.open_) (h : s.FlowWith flight) : t.FlowWith flight := by
  have ctx : t.ctx = s.ctx := funext fun c => ctx_congr hc c
  have segment : t.segmentAt = s.segmentAt := funext fun c => segmentAt_congr hp (by rw [ctx])
  unfold State.FlowWith
  rw [ctx, segment, payload, open_]
  exact h

section
variable {s : State} {l : LaneId} {f : Transmitter → Transmitter}

theorem flight_modTx : (s.modTx l f).flight = Function.update s.flight l (f (s.lane l).tx).inFlight := by
  funext k
  by_cases hk : k = l
  · subst hk
    simp [State.flight]
  · simp [State.flight, Function.update_of_ne hk, lane_modTx_ne s f (Ne.symm hk)]

theorem payload_modTx : (s.modTx l f).payload = s.payload := by
  funext k
  by_cases hk : l = k
  · subst hk
    simp [State.payload]
  · simp [State.payload, hk]

theorem open_modTx : (s.modTx l f).open_ = s.open_ := by
  funext k
  by_cases hk : l = k
  · subst hk
    simp [State.open_]
  · simp [State.open_, hk]

/-- The transmitter counts with its in-flight list alone. -/
theorem flowWith_modTx {flight : LaneId → List InFlight} (h : s.FlowWith flight) : (s.modTx l f).FlowWith flight :=
  flowWith_congr (s := s) rfl rfl payload_modTx open_modTx h

end

/-! ### A job ends -/

section
variable {ctx ctx' : CtxId → Context} {segment segment' : CtxId → Nat → Option Segment} {flight flight' : LaneId → List InFlight}
  {payload : LaneId → Nat} {open_ : LaneId → Bool}

/-- A job ends that has no entry left in flight. -/
theorem Flow.free (h : Flow ctx segment flight payload open_) {c : CtxId} (gone : ctx' c = {})
    (others : ∀ d, d ≠ c → ctx' d = ctx d) (segments : ∀ d, d ≠ c → segment' d = segment d)
    (frames : ∀ l d, d ≠ c → framesOf (flight' l) d = framesOf (flight l) d) (rest : ∀ l, ∀ e ∈ flight' l, e ∈ flight l)
    (none_left : ∀ l, ∀ e ∈ flight' l, e.ctx ≠ c)
    (order : ∀ l, (flight' l).Pairwise fun a b => a.what = .cancel → b.ctx ≠ a.ctx) :
    Flow ctx' segment' flight' payload open_ := by
  refine Flow.one h c others segments frames (fun l e he _ => rest l e he)
    (fun l e he hc => absurd hc (none_left l e he)) order ?_
  rw [gone, framesOf_nil (none_left _)]
  exact jobFlow_cleared _ _

end

section
variable {s : State} {c : CtxId} {flight : LaneId → List InFlight}

theorem payload_freeCtx (reason : EndReason) : (s.freeCtx c reason).payload = s.payload :=
  funext fun k => by simp only [State.payload, lane_freeCtx]

theorem open_freeCtx (reason : EndReason) : (s.freeCtx c reason).open_ = s.open_ :=
  funext fun k => by simp only [State.open_, lane_freeCtx]

theorem segmentAt_freeCtx_ne (partition : PartitionLaw s) (reason : EndReason) {d : CtxId} (h : d ≠ c) :
    (s.freeCtx c reason).segmentAt d = s.segmentAt d := by
  funext k
  simp only [State.segmentAt, jobSegments_freeCtx_ne partition reason h.symm]

/-- A job without an entry in flight ends. -/
theorem flowWith_freeCtx (h : s.FlowWith flight) (partition : PartitionLaw s) (reason : EndReason)
    (none_left : ∀ l, ∀ e ∈ flight l, e.ctx ≠ c) : (s.freeCtx c reason).FlowWith flight := by
  unfold State.FlowWith
  rw [payload_freeCtx, open_freeCtx]
  exact Flow.free h (ctx_freeCtx_same _ _ _) (fun d hd => ctx_freeCtx_ne _ _ hd.symm)
    (fun d hd => segmentAt_freeCtx_ne partition reason hd) (fun _ _ _ => rfl) (fun _ _ he => he) none_left h.order

/-! ### An entry is acknowledged (R115, R116) -/

/-- Every CANCEL in flight is of an ABORTING job (R75). -/
def CancelsAbort (s : State) (flight : LaneId → List InFlight) : Prop :=
  ∀ l, ∀ e ∈ flight l, e.what = .cancel → (s.ctx e.ctx).state = .aborting

variable {l : LaneId} {q : BitVec 4} {more : List InFlight}

/-- The in-flight lists, with the head of one lane's list taken off. -/
theorem mem_of_update_tail {e : InFlight} {k : LaneId} (hl : flight l = e :: more) {x : InFlight}
    (hx : x ∈ Function.update flight l more k) : x ∈ flight k := by
  by_cases hk : k = l
  · subst hk
    rw [Function.update_self] at hx
    rw [hl]
    exact List.mem_cons_of_mem _ hx
  · rwa [Function.update_of_ne hk] at hx

theorem order_update_tail {ctx : CtxId → Context} {segment : CtxId → Nat → Option Segment} {payload : LaneId → Nat}
    {open_ : LaneId → Bool} (h : Flow ctx segment flight payload open_) {e : InFlight} (hl : flight l = e :: more)
    (k : LaneId) : (Function.update flight l more k).Pairwise fun a b => a.what = .cancel → b.ctx ≠ a.ctx := by
  by_cases hk : k = l
  · subst hk
    rw [Function.update_self]
    exact (List.pairwise_cons.mp (hl ▸ h.order k)).2
  · rw [Function.update_of_ne hk]
    exact h.order k

theorem framesOf_update_tail {e : InFlight} (hl : flight l = e :: more) (k : LaneId) {d : CtxId} (hd : d ≠ e.ctx) :
    framesOf (Function.update flight l more k) d = framesOf (flight k) d := by
  by_cases hk : k = l
  · subst hk
    rw [Function.update_self, hl, framesOf_cons e more, framesOf_ne hd.symm, List.nil_append]
  · rw [Function.update_of_ne hk]

/-- The head of a lane's list is taken off, and its job changes with it. -/
theorem Flow.drop {ctx ctx' : CtxId → Context} {segment segment' : CtxId → Nat → Option Segment} {payload : LaneId → Nat}
    {open_ : LaneId → Bool} (h : Flow ctx segment flight payload open_) {e : InFlight} (hl : flight l = e :: more)
    (others : ∀ d, d ≠ e.ctx → ctx' d = ctx d) (segments : segment' = segment)
    (live : (ctx' e.ctx).state ≠ .free) (lane : (ctx' e.ctx).lane = l)
    (job : JobFlow (ctx' e.ctx) (framesOf more e.ctx) (FrameIn (segment e.ctx) (payload l)) (open_ l)) :
    Flow ctx' segment' (Function.update flight l more) payload open_ := by
  subst segments
  have own_lane := (h.entries l e (hl ▸ List.mem_cons_self)).2.1
  refine Flow.one h e.ctx others (fun _ _ => rfl) (fun k d hd => framesOf_update_tail hl k hd)
    (fun k x hx _ => mem_of_update_tail hl hx) (fun k x hx hc => ?_) (order_update_tail h hl) ?_
  · obtain ⟨-, same, frames⟩ := h.entries k x (mem_of_update_tail hl hx)
    rw [hc] at same frames
    exact ⟨live, lane.trans (own_lane.symm.trans same), frames⟩
  · rw [lane, Function.update_self]
    exact job

/-- One segment more of a job is acknowledged (R116). -/
theorem jobFlow_countAck {x : Context} {frames : List (Nat × Nat × Bool)} {inside : Nat → Nat → Prop} {o : Bool} {k f : Nat}
    (job : JobFlow x ((k, f, true) :: frames) inside o) (live : x.state ≠ .free)
    (left : x.state = .draining → x.acked + 1 ≠ x.segCount) : JobFlow { x with acked := x.acked + 1 } frames inside o := by
  obtain ⟨f', runs⟩ := job.runs
  obtain ⟨at_head, later⟩ := runsTo_cons.mp runs
  cases at_head
  refine { job with
    cleared := fun free => absurd free live
    runs := ⟨0, later⟩
    draining := fun hd => ⟨(job.draining hd).1, ?_⟩
    unstarted := fun hu => ?_ }
  · have below := (job.draining hd).2
    have := left hd
    dsimp only
    omega
  · obtain ⟨h1, h2, h3⟩ := job.unstarted hu
    rw [h1, h2, h3] at runs
    cases frames_nil_of_runsTo_zero runs

/-- A frame that is not its segment's last is acknowledged (R116). -/
theorem jobFlow_notLast {x : Context} {frames : List (Nat × Nat × Bool)} {inside : Nat → Nat → Prop} {o : Bool} {k f : Nat}
    (job : JobFlow x ((k, f, false) :: frames) inside o) : JobFlow x frames inside o := by
  obtain ⟨f', runs⟩ := job.runs
  obtain ⟨at_head, later⟩ := runsTo_cons.mp runs
  cases at_head
  exact { job with runs := ⟨_, later⟩ }

/-- A DRAINING job whose last segment is acknowledged has no frame left in flight (R54). -/
theorem framesOf_completes {x : Context} {frames : List (Nat × Nat × Bool)} {inside : Nat → Nat → Prop} {o : Bool} {k f : Nat}
    (job : JobFlow x ((k, f, true) :: frames) inside o) (drains : x.state = .draining) (last : x.acked + 1 = x.segCount) :
    frames = [] := by
  obtain ⟨f', runs⟩ := job.runs
  obtain ⟨at_head, later⟩ := runsTo_cons.mp runs
  cases at_head
  have sent := (job.draining drains).1
  have cut := job.cutIdle (by simp [drains]) (by simp [drains])
  have forward := runsTo_forward later
  by_contra hne
  simp only [frameAfter, if_true, if_neg hne, cut] at forward
  omega

theorem segmentAcked_ctxs (k : Nat) : (s.segmentAcked l c k).ctxs = (s.countAck c).ctxs := by
  unfold State.segmentAcked
  split <;> rfl

theorem ctx_segmentAcked (k : Nat) (d : CtxId) :
    (s.segmentAcked l c k).ctx d = if d = c then { s.ctx c with acked := (s.ctx c).acked + 1 } else s.ctx d := by
  rw [ctx_congr (segmentAcked_ctxs k), State.countAck, ctx_modCtx]
  simp only [eq_comm]

theorem segmentAcked_pool (k : Nat) : (s.segmentAcked l c k).pool = s.pool := by
  unfold State.segmentAcked
  split <;> rfl

theorem segmentAcked_lanes (k : Nat) : (s.segmentAcked l c k).lanes = s.lanes := by
  unfold State.segmentAcked
  split <;> rfl

theorem segmentAt_segmentAcked (k : Nat) : (s.segmentAcked l c k).segmentAt = s.segmentAt := by
  funext d
  refine segmentAt_congr (segmentAcked_pool k) ?_
  rw [ctx_segmentAcked]
  split
  · next hd => rw [hd]
  · rfl

theorem SameStore.segmentAcked (s : State) (l : LaneId) (c : CtxId) (k : Nat) : SameStore s (s.segmentAcked l c k) := by
  have counted : SameStore s (s.countAck c) := .modCtx s c rfl rfl rfl id
  unfold State.segmentAcked
  split
  · exact counted.trans (.post _ _)
  · exact counted

theorem payload_congr {t : State} (hl : t.lanes = s.lanes) : t.payload = s.payload :=
  funext fun k => by simp only [State.payload, lane_congr hl]

theorem open_congr {t : State} (hl : t.lanes = s.lanes) : t.open_ = s.open_ :=
  funext fun k => by simp only [State.open_, lane_congr hl]

/-- When no later entry of the head's list is of its job, no entry of the lists left is. -/
theorem none_left_of_tail (h : s.FlowWith flight) {e : InFlight} (hl : flight l = e :: more)
    (tail : ∀ x ∈ more, x.ctx ≠ e.ctx) (k : LaneId) : ∀ x ∈ Function.update flight l more k, x.ctx ≠ e.ctx := by
  intro x hx
  by_cases hk : k = l
  · subst hk
    rw [Function.update_self] at hx
    exact tail x hx
  · intro same
    have own := (h.entries l e (hl ▸ List.mem_cons_self)).2.1
    have other := (h.entries k x (mem_of_update_tail hl hx)).2.1
    exact hk (other.symm.trans (same ▸ own))

/-- The job of the head of a lane's list ends, when the list has no later entry of it. -/
theorem flowWith_freeHead {u : State} (h : s.FlowWith flight) {e : InFlight} (hl : flight l = e :: more)
    (partition : PartitionLaw u) (others : ∀ d, d ≠ e.ctx → u.ctx d = s.ctx d) (segments : u.segmentAt = s.segmentAt)
    (lanes : u.lanes = s.lanes) (tail : ∀ x ∈ more, x.ctx ≠ e.ctx) (reason : EndReason) :
    (u.freeCtx e.ctx reason).FlowWith (Function.update flight l more) := by
  unfold State.FlowWith
  rw [payload_freeCtx, open_freeCtx, payload_congr lanes, open_congr lanes]
  refine Flow.free h (ctx_freeCtx_same _ _ _) (fun d hd => ?_) (fun d hd => ?_)
    (fun k d hd => framesOf_update_tail hl k hd) (fun k x hx => mem_of_update_tail hl hx) (none_left_of_tail h hl tail)
    (order_update_tail h hl)
  · rw [ctx_freeCtx_ne _ _ hd.symm, others d hd]
  · rw [segmentAt_freeCtx_ne partition reason hd, segments]

/-- The CANCELs left in flight are still of ABORTING jobs, when the job of the head has none or keeps its state. -/
theorem cancelsAbort_tail {t : State} (aborts : CancelsAbort s flight) {e : InFlight} (hl : flight l = e :: more)
    (others : ∀ d, d ≠ e.ctx → t.ctx d = s.ctx d)
    (own : (t.ctx e.ctx).state = (s.ctx e.ctx).state ∨ ∀ k, ∀ x ∈ Function.update flight l more k, x.ctx ≠ e.ctx) :
    CancelsAbort t (Function.update flight l more) := by
  intro k x hx hw
  have was := aborts k x (mem_of_update_tail hl hx) hw
  by_cases hc : x.ctx = e.ctx
  · rcases own with same | none_left
    · rw [hc, same, ← hc]
      exact was
    · exact absurd hc (none_left k x hx)
  · rw [others _ hc]
    exact was

/-- Accounting for the head of a lane's list (R116). -/
theorem flowWith_account (store : StoreLaw s) (aborts : CancelsAbort s flight) (h : s.FlowWith flight) {e : InFlight}
    (hl : flight l = e :: more) : (s.account l e).FlowWith (Function.update flight l more) ∧
      CancelsAbort (s.account l e) (Function.update flight l more) := by
  obtain ⟨live, lane, -⟩ := h.entries l e (hl ▸ List.mem_cons_self)
  have job := h.jobs e.ctx
  have order := List.pairwise_cons.mp (hl ▸ h.order l)
  rw [lane, hl, framesOf_cons e more] at job
  obtain ⟨q, c, what⟩ := e
  dsimp only at live lane job order
  cases what with
  | cancel =>
    rw [account_cancel]
    have tail : ∀ x ∈ more, x.ctx ≠ c := fun x hx => order.1 x hx rfl
    exact ⟨flowWith_freeHead h hl store.2.1 (fun _ _ => rfl) rfl rfl tail _,
      cancelsAbort_tail aborts hl (fun d hd => ctx_freeCtx_ne _ _ hd.symm) (.inr (none_left_of_tail h hl tail))⟩
  | data k f flags =>
    rw [framesOf_data] at job
    cases last : flags.last with
    | false =>
      rw [account_notLast s l q c k f last]
      rw [last] at job
      exact ⟨Flow.drop h hl (fun _ _ => rfl) rfl live lane (jobFlow_notLast job),
        cancelsAbort_tail aborts hl (fun _ _ => rfl) (.inl rfl)⟩
    | true =>
      rw [account_last s l q c k f last]
      rw [last] at job
      have others : ∀ d, d ≠ c → (s.segmentAcked l c k).ctx d = s.ctx d := fun d hd => by
        rw [ctx_segmentAcked, if_neg hd]
      have own : (s.segmentAcked l c k).ctx c = { s.ctx c with acked := (s.ctx c).acked + 1 } := by
        rw [ctx_segmentAcked, if_pos rfl]
      have lanes := segmentAcked_lanes (s := s) (l := l) (c := c) k
      split
      · next completes =>
        obtain ⟨drains, all⟩ := (completes_iff s c).mp completes
        have none_left := framesOf_completes job drains all
        have tail : ∀ x ∈ more, x.ctx ≠ c := fun x hx hc => by
          have cancel := cancel_of_framesOf_nil none_left hx hc
          have aborting := aborts l x (hl ▸ List.mem_cons_of_mem _ hx) cancel
          rw [hc, drains] at aborting
          cases aborting
        exact ⟨flowWith_freeHead h hl (storeLaw_sameStore (.segmentAcked s l c k) store).2.1 others
            (segmentAt_segmentAcked k) lanes tail _,
          cancelsAbort_tail aborts hl (fun d hd => (ctx_freeCtx_ne _ _ hd.symm).trans (others d hd))
            (.inr (none_left_of_tail h hl tail))⟩
      · next goes_on =>
        refine ⟨?_, cancelsAbort_tail aborts hl others (.inl (by rw [own]))⟩
        unfold State.FlowWith
        rw [payload_congr lanes, open_congr lanes]
        refine Flow.drop h hl others (segmentAt_segmentAcked k) (by rw [own]; exact live) (by rw [own]; exact lane) ?_
        rw [own]
        exact jobFlow_countAck job live fun drains all => goes_on ((completes_iff s c).mpr ⟨drains, all⟩)

/-- Accounting for the first entries of a lane's list, one after another. -/
theorem flowWith_accounts {removed rest : List InFlight} (store : StoreLaw s) (aborts : CancelsAbort s flight)
    (h : s.FlowWith flight) (hl : flight l = removed ++ rest) :
    (removed.foldl (fun s e => s.account l e) s).FlowWith (Function.update flight l rest) := by
  induction removed generalizing s flight with
  | nil =>
    rw [List.nil_append] at hl
    rw [← hl, Function.update_eq_self]
    exact h
  | cons e removed ih =>
    obtain ⟨flow, aborts'⟩ := flowWith_account store aborts h hl
    have rest_of := ih ((StoreStep.account s l e).1 store) aborts' flow (Function.update_self ..)
    rwa [Function.update_idem] at rest_of

end

end Sys2Proof.Machine
end

-- ==== Proofs: Cuts and faults ====
section
/-! PROOFS. Cuts and faults: a frame more in flight, and a lane whose frames are discarded (R107 to R112, R129 to R132). -/

namespace Sys2Proof.Machine

/-! ### Forming a frame (R107, R111) -/

section
variable {ctx ctx' : CtxId → Context} {segment segment' : CtxId → Nat → Option Segment} {flight : LaneId → List InFlight}
  {payload : LaneId → Nat} {open_ : LaneId → Bool} {l : LaneId} {e : InFlight}

/-- A frame of a job joins the tail of its lane's list; the job has no CANCEL in flight. -/
theorem Flow.append (h : Flow ctx segment flight payload open_) (others : ∀ d, d ≠ e.ctx → ctx' d = ctx d)
    (lane : (ctx e.ctx).lane = l) (live : (ctx' e.ctx).state ≠ .free) (lane' : (ctx' e.ctx).lane = l)
    (frame : ∀ k f flags, e.what = .data k f flags → FrameIn (segment e.ctx) (payload l) k f)
    (no_cancel : ∀ x ∈ flight l, x.what = .cancel → x.ctx ≠ e.ctx)
    (job : JobFlow (ctx' e.ctx) (framesOf (flight l) e.ctx ++ framesOf [e] e.ctx) (FrameIn (segment e.ctx) (payload l))
      (open_ l)) : Flow ctx' segment (Function.update flight l (flight l ++ [e])) payload open_ := by
  have mem : ∀ k x, x ∈ Function.update flight l (flight l ++ [e]) k → x ∈ flight k ∨ (k = l ∧ x = e) := fun k x hx => by
    by_cases hk : k = l
    · subst hk
      rw [Function.update_self, List.mem_append, List.mem_singleton] at hx
      exact hx.imp_right fun eq => ⟨rfl, eq⟩
    · rw [Function.update_of_ne hk] at hx
      exact .inl hx
  refine Flow.one h e.ctx others (fun _ _ => rfl) (fun k d hd => ?_) (fun k x hx hc => ?_) (fun k x hx hc => ?_)
    (fun k => ?_) ?_
  · by_cases hk : k = l
    · subst hk
      rw [Function.update_self, framesOf_append, framesOf_ne hd.symm, List.append_nil]
    · rw [Function.update_of_ne hk]
  · exact (mem k x hx).resolve_right fun eq => hc (by rw [eq.2])
  · rcases mem k x hx with old | ⟨rfl, rfl⟩
    · obtain ⟨-, own, frames⟩ := h.entries k x old
      rw [hc] at own frames
      exact ⟨live, lane'.trans (lane.symm.trans own), frames⟩
    · exact ⟨live, lane', frame⟩
  · by_cases hk : k = l
    · subst hk
      rw [Function.update_self]
      refine List.pairwise_append.mpr ⟨h.order k, List.pairwise_singleton _ _, fun a ha b hb hw => ?_⟩
      rw [List.mem_singleton.mp hb]
      exact (no_cancel a ha hw).symm
    · rw [Function.update_of_ne hk]
      exact h.order k
  · rw [lane', Function.update_self, framesOf_append]
    exact job

end

section
variable {x : Context} {frames : List (Nat × Nat × Bool)} {inside : Nat → Nat → Prop}

/-- The running job's context after a frame that is not its segment's last (R110). -/
def afterFrame (x : Context) : Context := { x with started := true, cut := x.cut + 1 }

/-- The running job's context after the last frame of a segment (R110). -/
def afterSegment (x : Context) : Context := { x with started := true, cut := 0, sent := x.sent + 1 }

theorem jobFlow_afterFrame (job : JobFlow x frames inside true) (runs : x.state = .running)
    (next : inside x.sent (x.cut + 1)) : JobFlow (afterFrame x) (frames ++ [(x.sent, x.cut, false)]) inside true := by
  obtain ⟨f, behind⟩ := job.runs
  refine { job with
    cleared := fun free => by simp [afterFrame, runs] at free
    runs := ⟨f, runsTo_append_frame behind⟩
    cutInside := fun _ => next
    cutIdle := fun idle => absurd runs idle
    unstarted := fun hu => by cases hu
    closed := fun hc => by cases hc }

theorem jobFlow_afterSegment (job : JobFlow x frames inside true) (runs : x.state = .running)
    (more : x.sent + 1 < x.segCount) :
    JobFlow (afterSegment x) (frames ++ [(x.sent, x.cut, true)]) inside true := by
  obtain ⟨f, behind⟩ := job.runs
  refine { job with
    cleared := fun free => by simp [afterSegment, runs] at free
    runs := ⟨f, runsTo_append_frame behind⟩
    sent_le := more.le
    cutInside := fun h => absurd rfl h
    draining := fun hd => by simp [afterSegment, runs] at hd
    seated := fun _ => more
    cutIdle := fun _ _ => rfl
    unstarted := fun hu => by cases hu
    closed := fun hc => by cases hc }

/-- After the last frame of its last segment the job drains (R53, R110). -/
theorem jobFlow_drains (job : JobFlow x frames inside true) (last : x.sent + 1 = x.segCount) :
    JobFlow { afterSegment x with state := .draining } (frames ++ [(x.sent, x.cut, true)]) inside true := by
  obtain ⟨f, behind⟩ := job.runs
  have forward := runsTo_forward behind
  refine { job with
    cleared := fun free => by cases free
    runs := ⟨f, runsTo_append_frame behind⟩
    sent_le := last.le
    cutInside := fun h => absurd rfl h
    draining := fun _ => ⟨last, ?_⟩
    seated := fun seated => by simp [Seated] at seated
    cutIdle := fun _ _ => rfl
    unstarted := fun hu => by cases hu
    closed := fun hc => by cases hc }
  simp only [afterSegment] at forward ⊢
  omega

end

/-- The frame behind one that is not its segment's last exists (R108). -/
theorem next_frame_inside {g : Segment} {p f : Nat} (inside : f * p < g.length) (h : isLastFrame g p f = false) :
    (f + 1) * p < g.length := by
  simp only [isLastFrame, frameSpan, beq_eq_false_iff_ne, ne_eq] at h
  rw [Nat.add_mul, Nat.one_mul]
  omega

/-! ### A lane enters FAULT (R99, R129 to R132) -/

section
variable {s : State} {l : LaneId} {why : FaultCause} {cause : LaneCause}

theorem flight_enterFault : (s.enterFault l why cause).flight = Function.update s.flight l [] := by
  funext k
  by_cases hk : k = l
  · subst hk
    rw [Function.update_self, State.flight, lane_enterFault_same]
  · rw [Function.update_of_ne hk, State.flight, lane_enterFault_ne _ _ _ _ (Ne.symm hk)]
    rfl

theorem payload_enterFault : (s.enterFault l why cause).payload = s.payload := by
  funext k
  by_cases hk : k = l
  · subst hk
    rw [State.payload, lane_enterFault_same]
    rfl
  · rw [State.payload, lane_enterFault_ne _ _ _ _ (Ne.symm hk)]
    rfl

theorem open_enterFault : (s.enterFault l why cause).open_ = Function.update s.open_ l false := by
  funext k
  by_cases hk : k = l
  · subst hk
    rw [Function.update_self, State.open_, lane_enterFault_same]
    rfl
  · rw [Function.update_of_ne hk, State.open_, lane_enterFault_ne _ _ _ _ (Ne.symm hk)]
    rfl

theorem segmentAt_enterFault : (s.enterFault l why cause).segmentAt = s.segmentAt := by
  have same := SameStore.enterFault s l why cause
  exact funext fun c => segmentAt_congr same.pool (same.segs c)

theorem afterRollback_of_lane_ne {x : Context} (h : x.lane ≠ l) : afterRollback l x = x :=
  if_neg fun hr => h (needsRollback_iff.mp hr).2.1

@[simp] theorem afterRollback_lane (x : Context) : (afterRollback l x).lane = x.lane := by
  unfold afterRollback
  split <;> rfl

/-- A job of a lane in FAULT goes back to its acked position, with nothing in flight (R13, R130, R131). -/
theorem jobFlow_afterRollback {x : Context} {frames : List (Nat × Nat × Bool)} {inside : Nat → Nat → Prop} {o o' : Bool}
    (job : JobFlow x frames inside o) (lane : x.lane = l) (within : ∀ k f, inside k f → k < x.segCount) :
    JobFlow (afterRollback l x) [] inside o' := by
  obtain ⟨f, runs⟩ := job.runs
  have forward := runsTo_forward runs
  dsimp only at forward
  unfold afterRollback
  split
  · next rolls =>
    obtain ⟨live, -, work⟩ := needsRollback_iff.mp rolls
    have cut_below : x.cut ≠ 0 → x.sent < x.segCount := fun hc => within _ _ (job.cutInside hc)
    have sent_le := job.sent_le
    refine
      { cleared := fun free => ?_
        runs := ⟨0, runsTo_nil.mpr rfl⟩
        sent_le := ?_
        resend_le := ?_
        cutInside := fun h => absurd rfl h
        draining := fun hd => ?_
        seated := fun _ => ?_
        cutIdle := fun _ _ => rfl
        unstarted := fun hu => ⟨(job.unstarted hu).1, (job.unstarted hu).1, rfl⟩
        closed := fun _ => rfl }
    · dsimp only at free
      split at free
      · cases free
      · exact absurd free live
    · exact (show x.acked ≤ x.segCount by omega)
    · refine Nat.max_le.mpr ⟨job.resend_le, ?_⟩
      split
      · exact sent_le
      · next hc => exact cut_below hc
    · dsimp only at hd
      split at hd
      · cases hd
      · next h => exact absurd hd h
    · refine (show x.acked < x.segCount from ?_)
      rcases work with h | h
      · omega
      · have := cut_below h
        omega
  · next stays =>
    by_cases free : x.state = .free
    · rw [job.cleared free]
      exact jobFlow_cleared _ _
    · have idle : x.acked = x.sent ∧ x.cut = 0 := by
        by_contra hn
        refine stays (needsRollback_iff.mpr ⟨free, lane, ?_⟩)
        omega
      exact { job with
        runs := ⟨0, runsTo_nil.mpr (by rw [idle.1, idle.2])⟩
        closed := fun _ => idle.2 }

theorem segmentAt_within {c : CtxId} {p k f : Nat} (pool : PoolLaw s) (h : FrameIn (s.segmentAt c) p k f) :
    k < (s.ctx c).segCount := by
  obtain ⟨g, hg, -⟩ := h
  have below := (List.getElem?_eq_some_iff.mp hg).1
  rw [(pool.2 c).1]
  simpa [State.jobSegments] using below

theorem flowWith_enterFault (h : s.FlowWith s.flight) (pool : PoolLaw s) :
    (s.enterFault l why cause).FlowWith (s.enterFault l why cause).flight := by
  have ctx : (s.enterFault l why cause).ctx = fun c => afterRollback l (s.ctx c) := funext fun c => ctx_enterFault ..
  unfold State.FlowWith
  rw [flight_enterFault, payload_enterFault, open_enterFault, segmentAt_enterFault, ctx]
  refine ⟨fun k e he => ?_, fun k => ?_, fun c => ?_⟩
  · have hk : k ≠ l := by
      rintro rfl
      rw [Function.update_self] at he
      cases he
    rw [Function.update_of_ne hk] at he
    obtain ⟨live, lane, frames⟩ := h.entries k e he
    rw [afterRollback_of_lane_ne (lane ▸ hk)]
    exact ⟨live, lane, frames⟩
  · by_cases hk : k = l
    · subst hk
      rw [Function.update_self]
      exact .nil
    · rw [Function.update_of_ne hk]
      exact h.order k
  · rw [afterRollback_lane]
    by_cases hc : (s.ctx c).lane = l
    · rw [hc, Function.update_self, Function.update_self]
      exact jobFlow_afterRollback (hc ▸ h.jobs c) hc fun k f => segmentAt_within pool
    · rw [Function.update_of_ne hc, Function.update_of_ne hc, afterRollback_of_lane_ne hc]
      exact h.jobs c

end

/-! ### The jobs of a lane end (R101, R138) -/

/-- The jobs `gone` of a lane have ended and its list is emptied; the others of the lane have not started. -/
theorem flowWith_ended {s v u t : State} {l : LaneId} {reason : EndReason} {gone : List CtxId} (h : s.FlowWith s.flight)
    (before : v.ctxs = s.ctxs) (before_pool : v.pool = s.pool) (ended : Ended v u l reason gone) (ctxs : t.ctxs = u.ctxs)
    (pool : t.pool = u.pool) (flight : t.flight = Function.update s.flight l []) (payload : t.payload = s.payload)
    (open_ : ∀ k, k ≠ l → t.open_ k = s.open_ k) (own : ∀ c ∈ gone, (s.ctx c).lane = l)
    (others : ∀ c, (s.ctx c).lane = l → c ∉ gone → (s.ctx c).started = false) : t.FlowWith t.flight := by
  have ctx : t.ctx = u.ctx := funext fun c => ctx_congr ctxs c
  have segment : ∀ c, c ∉ gone → t.segmentAt c = s.segmentAt c := fun c hc => by
    rw [segmentAt_congr pool (by rw [ctx])]
    rw [← segmentAt_congr (t := v) before_pool (by rw [ctx_congr before])]
    funext k
    simp only [State.segmentAt, ended.segments c hc]
  have moves : ∀ c, c ∉ gone → (u.ctx c).lane = (s.ctx c).lane ∧ Moves (s.ctx c) (u.ctx c) := fun c hc => by
    obtain ⟨o, eq⟩ := ended.record hc
    rw [ctx_congr before] at eq
    refine ⟨by rw [eq], ?_⟩
    by_cases free : (s.ctx c).state = .free
    · rw [ended.linkKept c hc fun d _ => by rw [ctx_congr before, (h.jobs c).cleared free]; simp, ctx_congr before]
      exact .refl _
    · rw [eq]
      exact .of_link _ _ free
  have elsewhere : ∀ k e, e ∈ t.flight k → k ≠ l ∧ e ∈ s.flight k := fun k e he => by
    rw [flight] at he
    by_cases hk : k = l
    · subst hk
      rw [Function.update_self] at he
      cases he
    · exact ⟨hk, by rwa [Function.update_of_ne hk] at he⟩
  have stays : ∀ k e, e ∈ t.flight k → e.ctx ∉ gone := fun k e he hg => by
    obtain ⟨hk, old⟩ := elsewhere k e he
    exact hk ((h.entries k e old).2.1.symm.trans (own _ hg))
  unfold State.FlowWith
  rw [ctx, payload]
  refine ⟨fun k e he => ?_, fun k => ?_, fun c => ?_⟩
  · obtain ⟨live, lane, frames⟩ := h.entries k e (elsewhere k e he).2
    obtain ⟨o, eq⟩ := ended.record (stays k e he)
    rw [segment _ (stays k e he), eq, ctx_congr before]
    exact ⟨live, lane, frames⟩
  · rw [flight]
    by_cases hk : k = l
    · subst hk
      rw [Function.update_self]
      exact .nil
    · rw [Function.update_of_ne hk]
      exact h.order k
  · by_cases hg : c ∈ gone
    · rw [ended.gone c hg, framesOf_nil fun e he hc => stays _ e he (hc ▸ hg)]
      exact jobFlow_cleared _ _
    · obtain ⟨lane, moves⟩ := moves c hg
      have job := h.jobs c
      rw [lane, segment c hg, flight]
      by_cases hl : (s.ctx c).lane = l
      · obtain ⟨acked, sent, cut⟩ := job.unstarted (others c hl hg)
        rw [hl, Function.update_self]
        refine moves.jobFlow (o := false) (fun _ => rfl) { hl ▸ job with
          runs := ⟨0, runsTo_nil.mpr (by rw [acked, sent, cut])⟩
          closed := fun _ => cut }
      · rw [Function.update_of_ne hl]
        exact moves.jobFlow (fun hc => (open_ _ hl) ▸ hc) job

end Sys2Proof.Machine
end

-- ==== Proofs: Sound states ====
section
/-! PROOFS. Sound states: what every event leaves of the flow of frames (R8, R11, R106). -/

namespace Sys2Proof.Machine

/-! ### Transport -/

theorem flowWith_alike {s t : State} (h : s.FlowWith s.flight) (alike : Alike s t) : t.FlowWith t.flight := by
  have flight : t.flight = s.flight := funext fun l => by rw [State.flight, alike.tx]; rfl
  rw [flight]
  exact flowWith_congr (s := s) alike.ctxs alike.pool (funext fun l => by rw [State.payload, alike.ctl]; rfl)
    (funext fun l => by rw [State.open_, alike.ctl]; rfl) h

/-- The flow of frames, and nothing in flight on a lane that is neither UP nor HELD (R106). -/
structure Flows (s : State) : Prop where
  flow : s.FlowWith s.flight
  idle : ∀ l, s.open_ l = false → s.flight l = []

theorem Flows.reseats {s t : State} (h : Flows s) (moves : Reseats s t) : Flows t := by
  refine ⟨flowWith_reseats h.flow h.idle moves, fun l closed => ?_⟩
  rw [moves.flight]
  refine h.idle l ?_
  by_contra ho
  rw [moves.opened l (by simpa using ho)] at closed
  cases closed

/-- What the argument uses of a state that meets the laws. -/
structure Sound (s : State) : Prop where
  flows : Flows s
  store : StoreLaw s
  line : ∀ l, ∃ line, LaneLine s l line
  cancel : CancelLaw s

theorem sound_of_laws {s : State} (lane : ∀ l, LaneLaw (s.lane l)) (store : StoreLaw s) (schedule : ScheduleLaw s)
    (flow : FlowLaw s) : Sound s := by
  refine ⟨⟨(flowLaw_iff s).mp flow, fun l closed => ?_⟩, store, fun l => ⟨_, laneLine_of_scheduleLaw schedule l⟩,
    schedule.2.2.2.1⟩
  obtain ⟨⟨-, -, -, empty⟩, -⟩ := lane l
  refine empty ?_ ?_ <;> intro hs <;> simp [State.open_, hs, selects] at closed

namespace Sound

theorem alike {s t : State} (h : Sound s) (alike : Alike s t) : Sound t := by
  refine ⟨h.flows.reseats (.of_alike alike), storeLaw_sameStore (.of_alike alike) h.store, fun l => ?_, fun c l => ?_⟩
  · obtain ⟨line, hl⟩ := h.line l
    exact ⟨line, laneLine_congr (alike.sched l) (ctx_congr alike.ctxs) hl⟩
  · rw [alike.tx, ctx_congr alike.ctxs]
    exact h.cancel c l

variable {s t : State}

theorem reseats (h : Sound s) (moves : Reseats s t) : t.FlowWith t.flight := (h.flows.reseats moves).flow

theorem cleared (h : Sound s) (c : CtxId) : (s.ctx c).state = .free → s.ctx c = {} := (h.flows.flow.jobs c).cleared

theorem cancelsAbort (h : Sound s) : CancelsAbort s s.flight := by
  intro l e he hw
  by_contra hn
  have count := h.cancel e.ctx l
  rw [if_neg fun ab => hn ab.1] at count
  have none_of := List.filter_eq_nil_iff.mp (List.length_eq_zero_iff.mp (Nat.eq_zero_of_add_eq_zero count).2) e he
  simp [hw] at none_of

/-- A job whose CANCEL still waits is ABORTING, on its own lane, without a CANCEL in flight (R75). -/
theorem of_cancel_waits (h : Sound s) {l : LaneId} {e : CancelEntry} (he : e ∈ (s.lane l).tx.cancels) :
    (s.ctx e.ctx).state = .aborting ∧ (s.ctx e.ctx).lane = l ∧ ∀ x ∈ s.flight l, x.what = .cancel → x.ctx ≠ e.ctx := by
  have count := h.cancel e.ctx l
  have waits : 0 < ((s.lane l).tx.cancels.filter fun x => x.ctx == e.ctx).length :=
    List.length_pos_of_mem (List.mem_filter.mpr ⟨he, by simp⟩)
  split at count
  · next aborting =>
    refine ⟨aborting.1, aborting.2, fun x hx hw hc => ?_⟩
    have flies : 0 < ((s.lane l).tx.inFlight.filter fun x => x.ctx == e.ctx && x.what == .cancel).length :=
      List.length_pos_of_mem (List.mem_filter.mpr ⟨hx, by simp [hc, hw]⟩)
    omega
  · omega

/-- A job that has not started and is not ABORTING has no entry in flight. -/
theorem no_entry_of_unstarted (h : Sound s) {c : CtxId} (unstarted : (s.ctx c).started = false)
    (going : (s.ctx c).state ≠ .aborting) (l : LaneId) : ∀ e ∈ s.flight l, e.ctx ≠ c := by
  intro e he hc
  obtain ⟨-, lane, -⟩ := h.flows.flow.entries l e he
  have job := h.flows.flow.jobs c
  obtain ⟨f, runs⟩ := job.runs
  obtain ⟨acked, sent, cut⟩ := job.unstarted unstarted
  rw [acked, sent, cut] at runs
  rw [hc] at lane
  have none_left := frames_nil_of_runsTo_zero runs
  rw [lane] at none_left
  exact going (hc ▸ h.cancelsAbort l e he (cancel_of_framesOf_nil none_left he hc))

theorem withdraw (h : Sound s) {c : CtxId} (live : (s.ctx c).state ≠ .free) : Reseats s (s.withdraw c) := by
  obtain ⟨line, hl⟩ := h.line (s.ctx c).lane
  exact .withdrawn (withdrawn_withdraw hl rfl) live h.cleared

theorem record_withdraw (h : Sound s) (c : CtxId) :
    ∃ o b, (s.withdraw c).ctx c = { s.ctx c with link := o, suspendPending := b } := by
  obtain ⟨line, hl⟩ := h.line (s.ctx c).lane
  exact (withdrawn_withdraw hl rfl).record

end Sound

/-! ### Requests (chapters 1 and 4) -/

section
variable {s t : State} {l : LaneId} {c : CtxId} {line : List CtxId}

/-- After a job has joined a queue, the candidates are the old ones and the job (R41). -/
theorem LaneLine.selectable_joined {k : ClassId} (h : LaneLine s l line)
    (sched : (t.lane l).sched = (s.lane l).sched.join k c) (own : (t.ctx c).state = .queued)
    (others : ∀ d, d ≠ c → t.ctx d = s.ctx d) (was : (s.ctx c).state ≠ .preempted) : Selectable t l := by
  have before := h.selectable
  refine ⟨fun j d hd => ?_, fun r hr => ?_⟩
  · by_cases hc : d = c
    · rw [hc]
      exact own
    · rw [others d hc]
      refine before.queued j d ?_
      rw [sched, Scheduler.join, setQueue_get] at hd
      split at hd
      · next hj =>
        subst hj
        simpa [hc] using hd
      · exact hd
  · rw [sched] at hr
    have waits := before.resume r hr
    rw [others r (by rintro rfl; exact was waits), waits]

theorem admitJob_lane_others (cls : ClassId) (tag : Tag) (ds : List Descriptor) (k : LaneId) :
    (s.admitJob c l cls tag ds).lane k = { s.lane k with sched := ((s.admitJob c l cls tag ds).lane k).sched } := by
  by_cases hk : l = k
  · subst hk
    rw [lane_admitJob_same]
  · rw [lane_admitJob_ne _ _ _ _ _ _ hk]

theorem jobFlow_admitted (l : LaneId) (cls : ClassId) (tag : Tag) {ds : List Descriptor} (some_segment : 1 ≤ ds.length)
    (inside : Nat → Nat → Prop) (o : Bool) : JobFlow (admitted s l cls tag ds) [] inside o :=
  ⟨nofun, ⟨0, rfl⟩, Nat.zero_le _, Nat.zero_le _, fun h => absurd rfl h, nofun,
    fun _ => some_segment, fun _ _ => rfl, fun _ => ⟨rfl, rfl, rfl⟩, fun _ => rfl⟩

theorem Sound.admitJob (h : Sound s) (cls : ClassId) (tag : Tag) {ds : List Descriptor} (free : (s.ctx c).state = .free)
    (some_segment : 1 ≤ ds.length) : Flows (s.admitJob c l cls tag ds) := by
  have lane := admitJob_lane_others (s := s) (c := c) (l := l) cls tag ds
  have flight : (s.admitJob c l cls tag ds).flight = s.flight := funext fun k => by rw [State.flight, lane]; rfl
  have payload : (s.admitJob c l cls tag ds).payload = s.payload := funext fun k => by rw [State.payload, lane]; rfl
  have open_ : (s.admitJob c l cls tag ds).open_ = s.open_ := funext fun k => by rw [State.open_, lane]; rfl
  have others : ∀ d, d ≠ c → (s.admitJob c l cls tag ds).ctx d = s.ctx d := fun d hd => ctx_admitJob_ne _ _ _ _ _ _ hd.symm
  have none_in_flight := fun l => h.flows.flow.no_entry free l
  refine ⟨?_, by rw [open_, flight]; exact h.flows.idle⟩
  unfold State.FlowWith
  rw [flight, payload, open_]
  refine Flow.one h.flows.flow c others (fun d hd => ?_) (fun _ _ _ => rfl) (fun _ _ he _ => he)
    (fun l e he hc => absurd hc (none_in_flight l e he)) h.flows.flow.order ?_
  · funext k
    simp only [State.segmentAt, jobSegments_admitJob_ne h.store.2.1 hd.symm]
  · rw [ctx_admitJob_same, framesOf_nil (none_in_flight _)]
    exact jobFlow_admitted l cls tag some_segment _ _

theorem Sound.submit (h : Sound s) (cls : ClassId) (tag : Tag) {ds : List Descriptor} (free : (s.ctx c).state = .free)
    (some_segment : 1 ≤ ds.length) : Flows ((s.admitJob c l cls tag ds).select l) := by
  obtain ⟨line, hl⟩ := h.line l
  refine (h.admitJob cls tag free some_segment).reseats (.select ?_)
  exact hl.selectable_joined (c := c) (k := cls) (by rw [lane_admitJob_same]) (by rw [ctx_admitJob_same]; rfl)
    (fun d hd => ctx_admitJob_ne _ _ _ _ _ _ hd.symm) (by simp [free])

theorem Sound.suspend (h : Sound s) (waits : (s.ctx c).state = .queued ∨ (s.ctx c).state = .preempted) :
    Reseats s ((s.withdraw c).modCtx c fun x => { x with state := .suspended }) := by
  have live : (s.ctx c).state ≠ .free := by rcases waits with h | h <;> simp [h]
  obtain ⟨o, b, record⟩ := h.record_withdraw c
  have cut := (h.flows.flow.jobs c).cutIdle (by rcases waits with h | h <;> simp [h]) (by rcases waits with h | h <;> simp [h])
  refine (h.withdraw live).trans (.modCtx _ c ?_)
  rw [record]
  exact .to_seat (waits.imp_right fun hp => .inr (.inl hp)) (.inr (.inr (.inr rfl))) cut

theorem Sound.resume (h : Sound s) (suspended : (s.ctx c).state = .suspended) :
    Reseats s ((s.joinTail c).select (s.ctx c).lane) := by
  obtain ⟨line, hl⟩ := h.line (s.ctx c).lane
  have cut := (h.flows.flow.jobs c).cutIdle (by simp [suspended]) (by simp [suspended])
  have joins : Reseats s (s.joinTail c) := by
    unfold State.joinTail
    refine (Reseats.modSched s _ _).trans (.modCtx _ c ?_)
    exact .to_seat (.inr (.inr (.inr suspended))) (.inl rfl) cut
  refine joins.trans (.select ?_)
  exact hl.selectable_joined (c := c) (k := (s.ctx c).cls) (by rw [lane_joinTail_same _ _ rfl]) (by rw [ctx_joinTail_same])
    (fun d hd => ctx_joinTail_ne _ _ hd.symm) (by simp [suspended])

theorem abortUnstarted_eq : s.abortUnstarted c = (s.endJob .aborted c).selectIf (s.ctx c).state (s.ctx c).lane := by
  unfold State.abortUnstarted State.endJob
  rw [ite_self]

theorem Sound.abortUnstarted (h : Sound s) (live : (s.ctx c).state ≠ .free) (going : (s.ctx c).state ≠ .aborting)
    (unstarted : (s.ctx c).started = false) : Flows (s.abortUnstarted c) := by
  obtain ⟨line, hl⟩ := h.line (s.ctx c).lane
  have withdrawn := h.flows.reseats (h.withdraw live)
  have same : (s.endJob .aborted c).flight = (s.withdraw c).flight := funext fun k => by
    rw [State.flight, lane_endJob]; rfl
  have ended : Flows (s.endJob .aborted c) := by
    refine ⟨?_, fun l closed => ?_⟩
    · rw [same]
      refine flowWith_freeCtx withdrawn.flow (partitionLaw_withdraw h.store.2.1) _ fun l e he => ?_
      rw [(h.withdraw live).flight] at he
      exact h.no_entry_of_unstarted unstarted going l e he
    · rw [same]
      exact withdrawn.idle l (by rwa [State.open_, lane_endJob] at closed)
  rw [abortUnstarted_eq]
  exact ended.reseats (.selectIf _ fun _ => (laneLine_endJob .aborted hl rfl).selectable)

theorem Sound.abortStarted (h : Sound s) (live : (s.ctx c).state ≠ .free) : Reseats s (s.abortStarted c) := by
  obtain ⟨line, hl⟩ := h.line (s.ctx c).lane
  obtain ⟨o, b, record⟩ := h.record_withdraw c
  unfold State.abortStarted
  have aborts : Reseats s ((s.withdraw c).modCtx c fun y => { y with state := .aborting }) := by
    refine (h.withdraw live).trans (.modCtx _ c (.to_aborting ?_))
    rw [record]
    exact live
  refine aborts.trans ((Reseats.modTx _ _ ?_).trans (.selectIf _ fun runs => ?_))
  · rfl
  · have vacated : s.withdraw c = s.vacate (s.ctx c).lane c := by
      unfold State.withdraw
      rw [runs]
    rw [vacated]
    refine hl.selectable_vacated ((hl.running c).mpr ⟨runs, rfl⟩) ?_ fun d hd => ?_
    · rw [lane_modTx_same, lane_modCtx, lane_vacate_same]
    · rw [ctx_modTx, ctx_modCtx_ne _ _ hd.symm, ctx_vacate_ne hd.symm]

end

/-! ### Lanes (chapter 5) -/

section
variable {s t : State} {l : LaneId}

theorem not_open_of_closed (h : (s.lane l).ctl.state = .down ∨ (s.lane l).ctl.state = .fault) :
    selects (s.lane l).ctl.state ≠ true := by
  rcases h with h | h <;> simp [h, selects]

theorem Reseats.configure (cfg : LaneConfig) (h : (s.lane l).ctl.state = .down ∨ (s.lane l).ctl.state = .fault) :
    Reseats s (s.modCtl l fun x => { x with config := cfg }) :=
  .modCtl s l (fun ho => absurd ho (not_open_of_closed h)) id

theorem Reseats.postLaneState (s : State) (l : LaneId) (cause : LaneCause) : Reseats s (s.postLaneState l cause) := post s _

theorem Reseats.openLane (h : (s.lane l).ctl.state = .down ∨ (s.lane l).ctl.state = .fault) : Reseats s (s.openLane l) := by
  unfold State.openLane
  exact (modCtl s l (fun _ => rfl) fun ho => absurd ho (not_open_of_closed h)).trans
    ((modPair _ l _).trans (postLaneState _ l _))

theorem Reseats.takeReply (s : State) (l : LaneId) (bit : Byte) (r : Return) : Reseats s (s.takeReply l bit r) := by
  have stored : Reseats s (s.storeReply l (bit.getLsbD 0) r) := by
    unfold State.storeReply State.answerStation
    dsimp only
    split
    · exact modPair s l _
    · split
      · have kept := (modLane s l (f := fun y => { y with returns := y.returns ++ [r] }) rfl (fun _ => rfl) id).trans
          ((modRcv _ l fun y => { y with lastBit := some (bit.getLsbD 0) }).trans
            (modPair _ l fun p => { p with answers := p.answers ++ [.rack (bit.getLsbD 0)] }))
        split
        · exact kept.trans (post _ _)
        · exact kept
      · exact modPair s l _
  unfold State.takeReply
  split
  · exact stored
  · exact stored
  all_goals exact refl s

theorem Reseats.takeHold (s : State) (l : LaneId) : Reseats s (s.takeHold l) := by
  unfold State.takeHold
  split
  · exact (modTx s l rfl).trans ((modCtl _ l (fun _ => rfl) fun _ => rfl).trans (postLaneState _ l _))
  all_goals exact refl s

theorem Reseats.retransmit {es : List InFlight} (h : s.retransmit l es = .ok t) : Reseats s t := by
  obtain ⟨fs, -, rfl⟩ := retransmit_ok h
  exact (modPair s l _).trans (modTx _ l rfl)

theorem Reseats.startAckTimer (s : State) (l : LaneId) : Reseats s (s.startAckTimer l) := by
  unfold State.startAckTimer
  exact modTx s l rfl

theorem Reseats.retransmitTimed {es : List InFlight}
    (h : (match s.retransmit l es with
      | .error e => .error e
      | .ok u => .ok (u.startAckTimer l)) = Except.ok t) : Reseats s t := by
  split at h
  · cases h
  · next ok =>
    cases h
    exact (retransmit ok).trans (startAckTimer _ l)

theorem Reseats.takeReady (h : s.takeReady l = .ok t) : Reseats s t := by
  unfold State.takeReady at h
  split at h
  · have opened : Reseats s ((s.modCtl l fun c => { c with holdTimer := none, state := .up }).postLaneState l .ready) :=
      (modCtl s l (fun _ => rfl) fun _ => rfl).trans (postLaneState _ l _)
    dsimp only at h
    split at h
    · cases h
      exact opened
    · have timed := opened.trans (startAckTimer _ l)
      split at h
      · cases h
        exact timed
      · split at h
        · cases h
        · next ok =>
          cases h
          exact timed.trans ((retransmit ok).trans (modTx _ l rfl))
  all_goals
    cases h
    exact refl s

/-- The transmitter may have changed before the lane enters FAULT, but for its in-flight list (R123). -/
theorem Sound.faults (h : Sound s) {f : Transmitter → Transmitter} (kept : (f (s.lane l).tx).inFlight = (s.lane l).tx.inFlight)
    (why : FaultCause) (cause : LaneCause) :
    ((s.modTx l f).enterFault l why cause).FlowWith ((s.modTx l f).enterFault l why cause).flight :=
  flowWith_enterFault (h.reseats (.modTx s l kept)) (storeLaw_sameStore (.modTx s l f) h.store).1

/-- A retry ends in FAULT or goes on. -/
theorem Sound.retryOr (h : Sound s) {again : State → Except Fault State} (ok : s.retryOr l again = .ok t)
    (goes_on : ∀ u, again u = .ok t → Reseats u t) : t.FlowWith t.flight := by
  rcases retryOr_ok ok with ⟨-, rfl⟩ | ⟨-, ok⟩
  · exact h.faults rfl _ _
  · exact h.reseats ((Reseats.modTx s l rfl).trans (goes_on _ ok))

theorem Sound.takeNak (h : Sound s) {n : Byte} (ok : s.takeNak l n = .ok t) : t.FlowWith t.flight := by
  unfold State.takeNak at ok
  split at ok
  · split at ok
    · exact h.retryOr ok fun u ok => .retransmitTimed ok
    · exact h.retryOr ok fun u ok => by cases ok; exact .modTx u l rfl
    all_goals
      cases ok
      exact h.flows.flow
  · cases ok
    exact h.flows.flow

theorem Sound.ackExpiry (h : Sound s) (ok : s.ackExpiry l = .ok t) : t.FlowWith t.flight := by
  unfold State.ackExpiry at ok
  split at ok
  · exact h.retryOr ok fun u ok => .retransmitTimed ok
  · cases ok
    exact h.flows.flow

theorem Sound.probeExpiry (h : Sound s) : (s.probeExpiry l).FlowWith (s.probeExpiry l).flight := by
  unfold State.probeExpiry
  split
  · split
    · exact h.reseats ((Reseats.modPair s l _).trans (.modCtl _ l (fun _ => rfl) id))
    · exact flowWith_enterFault h.flows.flow h.store.1
  · exact h.flows.flow

theorem Sound.holdExpiry (h : Sound s) : (s.holdExpiry l).FlowWith (s.holdExpiry l).flight := by
  unfold State.holdExpiry
  split
  · exact flowWith_enterFault h.flows.flow h.store.1
  · exact h.flows.flow

/-! ### HELLO and LANE_RESET (R92, R101, R137 to R139) -/

/-- The lane's values after a HELLO that completes a synchronisation (R92). -/
def State.opened (s : State) (l : LaneId) (window : Nat) (id : Word16) : State :=
  ((((s.modCtl l fun c => { c with probeTimer := none, window := window, stationId := id, state := .up }).modPair l fun p =>
    { p with probes := 0 }).modTx l fun t => { t with nextSeq := 0 }).modRcv l fun r => { r with lastBit := none }).postLaneState
      l .hello

theorem synchronise_eq (window : Nat) (id : Word16) : s.synchronise l window id =
    match ((s.opened l window id).lane l).sched.running with
    | some _ => (s.opened l window id).evalBoundary l
    | none => (s.opened l window id).select l := rfl

theorem Reseats.opening (window : Nat) (id : Word16) : Reseats s (s.opened l window id) := by
  unfold State.opened
  exact (modCtl s l (fun _ => rfl) fun _ => rfl).trans ((modPair _ l _).trans ((modTx _ l rfl).trans
    ((modRcv _ l _).trans (postLaneState _ l _))))

theorem Sound.synchronise (h : Sound s) (window : Nat) (id : Word16) (closed : s.open_ l = false) :
    Reseats s (s.synchronise l window id) := by
  obtain ⟨line, hl⟩ := h.line l
  have line' : LaneLine (s.opened l window id) l line :=
    laneLine_congr (s := s) (by simp [State.opened]) (fun _ => rfl) hl
  rw [synchronise_eq]
  refine (Reseats.opening (l := l) window id).trans ?_
  split
  · refine .evalBoundary line' fun c hr => ?_
    have lane : (s.ctx c).lane = l := ((line'.running c).mp hr).2
    exact (h.flows.flow.jobs c).closed (lane ▸ closed)
  · exact .select line'.selectable

end

end Sys2Proof.Machine
end

-- ==== Proofs: No stop ====
section
/-! PROOFS. No stop: every step from the laws answers a next state that keeps the flow of frames (R8, R11, R106). -/

namespace Sys2Proof.Machine

/-! ### The jobs of a lane end (R101, R138) -/

section
variable {s : State} {l : LaneId}

theorem Sound.ended {v u t : State} {goes : Context → Bool} {reason : EndReason} (h : Sound s) (before : v.ctxs = s.ctxs)
    (before_pool : v.pool = s.pool) (ended : Ended v u l reason (allCtxs.filter (s.picked l goes)))
    (stay : ∀ x, goes x = false → x.started = false) (ctxs : t.ctxs = u.ctxs) (pool : t.pool = u.pool)
    (empty : (t.lane l).tx.inFlight = []) (config : (t.lane l).ctl.config = (s.lane l).ctl.config)
    (lanes : ∀ k, k ≠ l → t.lane k = s.lane k) : Flows t := by
  have flight : t.flight = Function.update s.flight l [] := by
    funext k
    by_cases hk : k = l
    · subst hk
      rw [Function.update_self]
      exact empty
    · rw [Function.update_of_ne hk, State.flight, lanes k hk]
      rfl
  have payload : t.payload = s.payload := by
    funext k
    by_cases hk : k = l
    · subst hk
      rw [State.payload, config]
      rfl
    · rw [State.payload, lanes k hk]
      rfl
  have open_ : ∀ k, k ≠ l → t.open_ k = s.open_ k := fun k hk => by
    rw [State.open_, lanes k hk]
    rfl
  refine ⟨flowWith_ended h.flows.flow before before_pool ended ctxs pool flight payload open_
    (fun c hc => picked_lane (mem_picked.mp hc)) fun c hc left => ?_, fun k closed => ?_⟩
  · by_cases free : (s.ctx c).state = .free
    · rw [h.cleared c free]
    · refine stay _ (Bool.eq_false_iff.mpr fun hg => left (mem_picked.mpr ?_))
      simp [State.picked, free, hc, hg]
  · rw [flight]
    by_cases hk : k = l
    · subst hk
      exact Function.update_self ..
    · rw [Function.update_of_ne hk]
      exact h.flows.idle k (open_ k hk ▸ closed)

theorem Sound.stationRestart (h : Sound s) (window : Nat) (id : Word16) : Flows (s.stationRestart l window id) := by
  obtain ⟨line, hl⟩ := h.line l
  obtain ⟨ended, left⟩ := restarted_ended l window id hl h.store
  rw [stationRestart_eq]
  unfold State.restarted
  generalize (s.restarting l window id).endJobs l (fun x => x.started) .stationRestart = e at ended left
  have lane : ((e.modCtl l fun c => { c with state := .up }).postLaneState l .stationRestart).lane l =
      { e.lane l with ctl := { (e.lane l).ctl with state := .up } } := by rw [lane_postLaneState, lane_modCtl_same]
  have restarted : Flows ((e.modCtl l fun c => { c with state := .up }).postLaneState l .stationRestart) := by
    refine h.ended (v := s.restarting l window id) (goes := fun x => x.started) rfl rfl ended (fun _ hx => hx) rfl rfl ?_ ?_
      fun k hk => ?_
    · rw [lane, ended.lane, lane_restarting_same]
    · rw [lane, ended.lane, lane_restarting_same]
    · rw [lane_postLaneState, lane_modCtl_ne _ _ hk.symm, ended.lanes k hk, lane_restarting_ne _ _ _ hk.symm]
  refine restarted.reseats (.select (LaneLine.selectable (laneLine_congr (s := e) ?_ (fun _ => rfl) left)))
  rw [lane]

theorem Sound.resetLane (h : Sound s) : Flows (s.resetLane l) := by
  obtain ⟨line, hl⟩ := h.line l
  have line' := laneLine_congr (s := s) (t := s.stopping l) (by rw [lane_stopping_same]) (fun _ => rfl) hl
  obtain ⟨ended, -⟩ := endJobs_ended (goes := fun _ => true) .laneReset (fun _ _ => rfl) line' h.store.2.1
  rw [resetLane_eq]
  generalize (s.stopping l).endJobs l (fun _ => true) .laneReset = e at ended
  refine h.ended (v := s.stopping l) (goes := fun _ => true) rfl rfl ended (fun _ hx => nomatch hx) rfl rfl ?_ ?_ fun k hk => ?_
  · rw [lane_postLaneState, lane_stopped_same]
    rfl
  · rw [lane_postLaneState, lane_stopped_same, ended.lane, lane_stopping_same]
  · rw [lane_postLaneState, lane_stopped_ne _ hk.symm, ended.lanes k hk, lane_stopping_ne _ hk.symm]

theorem Sound.takeHello (h : Sound s) (window : Byte) (id : Word16) : Flows (s.takeHello l window id) := by
  rcases takeHello_cases s l window id with eq | ⟨-, -, ⟨syncing, eq⟩ | ⟨-, eq⟩⟩ <;> rw [eq]
  · exact h.flows
  · exact h.flows.reseats (h.synchronise _ id (by simp [State.open_, syncing, selects]))
  · exact h.stationRestart _ id

end

/-! ### ACK (R115, R116) -/

section
variable {s : State} {l : LaneId}

theorem account_lanes (e : InFlight) : (s.account l e).lanes = s.lanes := by
  obtain ⟨q, c, what⟩ := e
  cases what with
  | cancel => exact freeCtx_lanes ..
  | data k f flags =>
    cases last : flags.last with
    | false => rw [account_notLast s l q c k f last]
    | true =>
      rw [account_last s l q c k f last]
      have acked := segmentAcked_lanes (s := s) (l := l) (c := c) k
      split
      · exact (freeCtx_lanes ..).trans acked
      · exact acked

theorem accounts_lanes (es : List InFlight) : (es.foldl (fun s e => s.account l e) s).lanes = s.lanes := by
  induction es generalizing s with
  | nil => rfl
  | cons e es ih => exact ih.trans (account_lanes e)

theorem Sound.takeAck (h : Sound s) (n : Byte) : (s.takeAck l n).FlowWith (s.takeAck l n).flight := by
  rcases takeAck_cases s l n with eq | ⟨removed, rest, -, split, eq⟩ <;> rw [eq]
  · exact h.flows.flow
  · obtain ⟨timer, settles⟩ := acknowledge_eq s l removed rest
    obtain ⟨before, -⟩ := splitThrough_some split
    have accounted := flowWith_accounts (s := s.modTx l fun t => { t with inFlight := rest }) (l := l)
      (storeLaw_sameStore (.modTx s l _) h.store) h.cancelsAbort (flowWith_modTx h.flows.flow) before
    have lanes := accounts_lanes (s := s.modTx l fun t => { t with inFlight := rest }) (l := l) removed
    have flight := flight_modTx (s := s) (l := l) (f := fun t => { t with inFlight := rest })
    rw [settles]
    generalize removed.foldl (fun s e => s.account l e) (s.modTx l fun t => { t with inFlight := rest }) = u at *
    have flight_u : u.flight = Function.update s.flight l rest := by
      rw [← flight]
      exact funext fun k => by rw [State.flight, lane_congr lanes]; rfl
    unfold State.settleAck
    refine flowWith_alike ?_ (.modPair _ l _)
    rw [flight_modTx]
    refine flowWith_modTx ?_
    have kept : Function.update u.flight l (u.flight l) = u.flight := Function.update_eq_self l _
    rw [← flight_u] at accounted
    exact kept.symm ▸ accounted

end

/-! ### Cuts (R107 to R112) -/

section
variable {s : State} {l : LaneId} {c : CtxId} {what : SentFrame} {frame : LaneFrame}

theorem flight_launch : (s.launch l c what frame).flight =
    Function.update s.flight l (s.flight l ++ [⟨(s.lane l).tx.nextSeq, c, what⟩]) := by
  funext k
  by_cases hk : k = l
  · subst hk
    simp [State.launch, State.flight]
  · simp [State.launch, State.flight, Function.update_of_ne hk, Ne.symm hk]

theorem payload_launch : (s.launch l c what frame).payload = s.payload := by
  funext k
  by_cases hk : l = k
  · subst hk
    simp [State.launch, State.payload]
  · simp [State.launch, State.payload, hk]

theorem open_launch : (s.launch l c what frame).open_ = s.open_ := by
  funext k
  by_cases hk : l = k
  · subst hk
    simp [State.launch, State.open_]
  · simp [State.launch, State.open_, hk]

theorem sched_launch : ((s.launch l c what frame).lane l).sched = (s.lane l).sched := by simp [State.launch]

theorem flowWith_launch
    (h : s.FlowWith (Function.update s.flight l (s.flight l ++ [⟨(s.lane l).tx.nextSeq, c, what⟩]))) :
    (s.launch l c what frame).FlowWith (s.launch l c what frame).flight := by
  rw [flight_launch]
  exact flowWith_congr (s := s) rfl rfl payload_launch open_launch h

/-- A CANCEL cut (R111). -/
theorem Sound.cancelCut (h : Sound s) : (s.cancelCut l).FlowWith (s.cancelCut l).flight := by
  unfold State.cancelCut
  split
  · split
    · next e more waits =>
      obtain ⟨aborting, lane, no_cancel⟩ := h.of_cancel_waits (l := l) (e := e) (by rw [waits]; exact List.mem_cons_self)
      unfold State.cutCancel
      refine flowWith_launch ?_
      have taken := (h.flows.reseats (.modTx s l (f := fun t => { t with cancels := t.cancels.tail }) rfl)).flow
      refine Flow.append taken (fun _ _ => rfl) lane ?_ lane (fun _ _ _ hw => nomatch hw) ?_ ?_
      · exact (show (s.ctx e.ctx).state ≠ .free by simp [aborting])
      · rw [flight_modTx, Function.update_self]
        exact no_cancel
      · have job := taken.jobs e.ctx
        have lane' : ((s.modTx l fun t => { t with cancels := t.cancels.tail }).ctx e.ctx).lane = l := lane
        rw [lane'] at job
        rw [framesOf_cancel, List.append_nil]
        exact job
    · exact h.flows.flow
  · exact h.flows.flow

/-- The next frame of the running job exists (R108). -/
theorem Sound.next_frame (h : Sound s) (running : (s.lane l).sched.running = some c) :
    ∃ g, s.segmentAt c (s.ctx c).sent = some g ∧ (s.ctx c).cut * s.payload l < g.length ∧ g.offset + g.length ≤ 131072 := by
  obtain ⟨line, hl⟩ := h.line l
  obtain ⟨runs, lane⟩ := (hl.running c).mp running
  have job := h.flows.flow.jobs c
  have below := job.seated (.inr (.inl runs))
  rw [(h.store.1.2 c).1] at below
  have exists_ : (s.ctx c).sent < (s.jobSegments c).length := by simpa [State.jobSegments] using below
  refine ⟨_, List.getElem?_eq_getElem exists_, ?_, ?_⟩
  · by_cases cut : (s.ctx c).cut = 0
    · rw [cut, Nat.zero_mul]
      exact (h.store.2.2.1 c _ (List.getElem_mem exists_)).1
    · obtain ⟨g, hg, inside⟩ := job.cutInside cut
      rw [lane] at inside
      have same : g = (s.jobSegments c)[(s.ctx c).sent] :=
        (Option.some.inj ((List.getElem?_eq_getElem exists_).symm.trans hg)).symm
      exact same ▸ inside
  · exact (h.store.2.2.1 c _ (List.getElem_mem exists_)).2.2

/-- The record of the next frame of a job (R108, R109). -/
def State.nextFrame (s : State) (l : LaneId) (c : CtxId) (g : Segment) : SentFrame :=
  .data (s.ctx c).sent (s.ctx c).cut (flagsFor (s.ctx c) g (s.payload l) (s.ctx c).sent (s.ctx c).cut)

/-- A cut of the running job never stops the part. -/
theorem cutData_ok {g : Segment}
    (segment : s.segmentAt c (s.ctx c).sent = some g) (inside : (s.ctx c).cut * s.payload l < g.length)
    (fits : g.offset + g.length ≤ 131072) : ∃ frame, s.cutData l c =
      .ok ((s.launch l c (s.nextFrame l c g) frame).advance l c (isLastFrame g (s.payload l) (s.ctx c).cut)) := by
  have formed := formFrame_formable (s := s) (l := l) (e := ⟨(s.lane l).tx.nextSeq, c, s.nextFrame l c g⟩)
    fun k f flags hw => by
      cases hw
      exact ⟨g, segment, inside, fits⟩
  refine ⟨frameOf s l ⟨(s.lane l).tx.nextSeq, c, s.nextFrame l c g⟩, ?_⟩
  unfold State.nextFrame State.payload at formed ⊢
  unfold State.cutData
  simp only [segment, formed]
  rfl

/-- A cut's changes of the running job, by where the frame stands (R110). -/
theorem advance_eq (last : Bool) : s.advance l c last =
    if last then
      if (s.ctx c).sent + 1 < (s.ctx c).segCount then (s.modCtx c afterSegment).evalBoundary l
      else ((s.modCtx c fun x => { afterSegment x with state := .draining }).vacate l c).select l
    else s.modCtx c afterFrame := by
  unfold State.advance State.drain
  simp only [modCtx_modCtx, ctx_modCtx_same]
  rfl

/-- The running job after a cut, before its boundary or its drain. -/
theorem Sound.launched (h : Sound s) (up : s.open_ l = true) (running : (s.lane l).sched.running = some c) {g : Segment}
    (segment : s.segmentAt c (s.ctx c).sent = some g) (inside : (s.ctx c).cut * s.payload l < g.length)
    {f : Context → Context} (lane' : (f (s.ctx c)).lane = (s.ctx c).lane) (segs : (f (s.ctx c)).segs = (s.ctx c).segs)
    (live : (f (s.ctx c)).state ≠ .free)
    (job : JobFlow (s.ctx c) (framesOf (s.flight l) c) (FrameIn (s.segmentAt c) (s.payload l)) true →
      JobFlow (f (s.ctx c)) (framesOf (s.flight l) c ++
        [((s.ctx c).sent, (s.ctx c).cut, isLastFrame g (s.payload l) (s.ctx c).cut)])
        (FrameIn (s.segmentAt c) (s.payload l)) true) :
    Flows ((s.launch l c (s.nextFrame l c g) frame).modCtx c f) := by
  obtain ⟨line, hl⟩ := h.line l
  obtain ⟨runs, lane⟩ := (hl.running c).mp running
  have before := h.flows.flow.jobs c
  rw [lane, up] at before
  have segments : (s.modCtx c f).segmentAt = s.segmentAt := funext fun d => segmentAt_congr rfl (by
    rw [ctx_modCtx]
    split
    · next hd => rw [segs, hd]
    · rfl)
  have own : (s.modCtx c f).ctx c = f (s.ctx c) := ctx_modCtx_same ..
  refine ⟨flowWith_launch (s := s.modCtx c f) (l := l) (c := c) (what := s.nextFrame l c g) (frame := frame) ?_,
    fun k closed => ?_⟩
  · unfold State.FlowWith
    rw [segments]
    refine Flow.append h.flows.flow (fun d hd => ctx_modCtx_ne _ _ hd.symm) lane ?_ ?_ (fun k f flags hw => ?_)
      (fun x hx hw hc => ?_) ?_
    · dsimp only
      rw [own]
      exact live
    · dsimp only
      rw [own, lane', lane]
    · cases hw
      exact ⟨g, segment, inside⟩
    · have aborting := h.cancelsAbort l x hx hw
      rw [hc, runs] at aborting
      cases aborting
    · dsimp only [State.nextFrame]
      rw [own, framesOf_data]
      have open_ : (s.modCtx c f).open_ l = true := up
      exact open_.symm ▸ job before
  · have closed' : s.open_ k = false := (congrFun (open_launch (s := s)) k).symm.trans closed
    have hk : k ≠ l := by
      rintro rfl
      rw [up] at closed'
      cases closed'
    have flight := congrFun (flight_launch (s := s) (l := l) (c := c) (what := s.nextFrame l c g) (frame := frame)) k
    rw [Function.update_of_ne hk] at flight
    exact flight.trans (h.flows.idle k closed')

/-- A DATA cut (R107 to R110). -/
theorem Sound.advance (h : Sound s) (up : s.open_ l = true) (running : (s.lane l).sched.running = some c) {g : Segment}
    (segment : s.segmentAt c (s.ctx c).sent = some g) (inside : (s.ctx c).cut * s.payload l < g.length) :
    Flows ((s.launch l c (s.nextFrame l c g) frame).advance l c (isLastFrame g (s.payload l) (s.ctx c).cut)) := by
  obtain ⟨line, hl⟩ := h.line l
  obtain ⟨runs, -⟩ := (hl.running c).mp running
  have below := (h.flows.flow.jobs c).seated (.inr (.inl runs))
  have launched := fun f => h.launched (frame := frame) (f := f) up running segment inside
  have sched := sched_launch (s := s) (l := l) (c := c) (what := s.nextFrame l c g) (frame := frame)
  have ctx : ∀ d, (s.launch l c (s.nextFrame l c g) frame).ctx d = s.ctx d := fun _ => rfl
  rw [advance_eq]
  generalize s.launch l c (s.nextFrame l c g) frame = u at *
  rw [ctx]
  cases last : isLastFrame g (s.payload l) (s.ctx c).cut with
  | false =>
    rw [last] at launched
    refine launched afterFrame rfl rfl (by simp [afterFrame, runs]) fun job => jobFlow_afterFrame job runs ?_
    exact ⟨g, segment, next_frame_inside inside last⟩
  | true =>
    rw [last] at launched
    rw [if_pos rfl]
    split
    · next more =>
      have cut := launched afterSegment rfl rfl (by simp [afterSegment, runs]) fun job => jobFlow_afterSegment job runs more
      have own : (u.modCtx c afterSegment).ctx c = afterSegment (s.ctx c) := by rw [ctx_modCtx_same, ctx]
      have seats : ∀ d, (u.modCtx c afterSegment).ctx d = s.ctx d ∨
          (d = c ∧ (u.modCtx c afterSegment).ctx d = afterSegment (s.ctx c)) := fun d => by
        by_cases hd : d = c
        · rw [hd]
          exact .inr ⟨rfl, own⟩
        · rw [ctx_modCtx_ne _ _ (Ne.symm hd), ctx]
          exact .inl rfl
      have line' : LaneLine (u.modCtx c afterSegment) l line := by
        refine laneLine_of_seats (s := s) sched (fun d => ?_) (fun d => ?_) (fun d => ?_) (fun d => ?_) hl <;>
          rcases seats d with eq | ⟨rfl, eq⟩ <;> rw [eq] <;> rfl
      refine cut.reseats (.evalBoundary line' fun d hd => ?_)
      have same : c = d := Option.some.inj (running.symm.trans (sched ▸ hd))
      rw [← same, own]
      rfl
    · next none_left =>
      have cut := launched (fun x => { afterSegment x with state := .draining }) rfl rfl (by simp) fun job =>
        jobFlow_drains job (by omega)
      refine cut.reseats ((Reseats.vacate _ l c (by rw [ctx_modCtx_same]; simp)).trans (.select ?_))
      refine hl.selectable_vacated running ?_ fun d hd => ?_
      · rw [lane_vacate_same, ctx_modCtx_same, lane_modCtx, sched, ctx]
        rfl
      · rw [ctx_vacate_ne hd.symm, ctx_modCtx_ne _ _ hd.symm, ctx]

/-- A DATA_CUT does nothing, or cuts the next frame of the running job. -/
theorem Sound.dataCut (h : Sound s) : ∃ t, s.dataCut l = .ok t ∧ t.FlowWith t.flight := by
  unfold State.dataCut
  split
  · next can =>
    simp only [State.canCut, Bool.and_eq_true, beq_iff_eq] at can
    split
    · next c running =>
      obtain ⟨g, segment, inside, fits⟩ := h.next_frame running
      obtain ⟨frame, eq⟩ := cutData_ok segment inside fits
      exact ⟨_, eq, (h.advance (by simp [State.open_, can.1.1, selects]) running segment inside).flow⟩
    · exact ⟨s, rfl, h.flows.flow⟩
  · exact ⟨s, rfl, h.flows.flow⟩

end

/-! ### Every event -/

theorem flowWith_reset (s : State) (cause : ResetCause) (straps : BitVec 2) (keep : Bool) :
    (s.partReset cause straps keep).FlowWith (s.partReset cause straps keep).flight := by
  refine flowWith_alike ((flowLaw_iff _).mp reset_flowLaw) ?_
  unfold State.partReset
  exact .of_fields rfl rfl (by dsimp only) rfl rfl

theorem Sound.event {s t : State} (h : Sound s) (event : Event s t) : t.FlowWith t.flight := by
  cases event with
  | quiet => exact h.flows.flow
  | partReset cause straps keep => exact flowWith_reset s cause straps keep
  | submit c l cls tag ds free _ _ some_segment _ _ => exact (h.submit cls tag (lowestFree_some free) some_segment).flow
  | suspend c waits => exact h.reseats (h.suspend waits)
  | setPending c b runs => exact h.reseats (.modCtx s c (.of_link _ _ (by simp [runs])))
  | resume c suspended => exact h.reseats (h.resume suspended)
  | abortUnstarted c live going unstarted => exact (h.abortUnstarted live going unstarted).flow
  | abortStarted c live _ _ => exact h.reseats (h.abortStarted live)
  | configure l cfg closed _ => exact h.reseats (.configure cfg closed)
  | openLane l closed => exact h.reseats (.openLane closed)
  | resetLane l => exact h.resetLane.flow
  | fetch l r rs _ => exact h.reseats (.modLane s l rfl (fun _ => rfl) id)
  | reply l bit r _ => exact h.reseats (.takeReply s l bit r)
  | hello l window id => exact (h.takeHello window id).flow
  | ack l n => exact h.takeAck n
  | nak l n t ok => exact h.takeNak ok
  | hold l => exact h.reseats (.takeHold s l)
  | ready l t ok => exact h.reseats (.takeReady ok)
  | probeExpiry l => exact h.probeExpiry
  | holdExpiry l => exact h.holdExpiry
  | ackExpiry l t ok => exact h.ackExpiry ok
  | dataCut l t ok =>
    obtain ⟨u, eq, flow⟩ := h.dataCut (l := l)
    cases eq.symm.trans ok
    exact flow
  | cancelCut l => exact h.cancelCut

/-! ### Every command answers a next state -/

section
variable {s : State} {l : LaneId}

/-- Every frame in flight can be formed again (R122). -/
theorem Sound.formable (h : Sound s) : ∀ e ∈ (s.lane l).tx.inFlight, formable s l e := by
  intro e he k f flags hw
  obtain ⟨g, segment, inside⟩ := (h.flows.flow.entries l e he).2.2 k f flags hw
  exact ⟨g, segment, inside, (h.store.2.2.1 e.ctx g (List.mem_of_getElem? segment)).2.2⟩

theorem mem_of_mem_fromSeq {es : List InFlight} {n : BitVec 4} {e : InFlight} (h : e ∈ fromSeq es n) : e ∈ es :=
  (List.dropWhile_suffix _).subset h

/-- A retransmission of frames in flight never stops the part, whatever has changed in the lane's own values. -/
theorem Sound.retransmit_ok (h : Sound s) {u : State} {es : List InFlight} (hc : s.ctxs = u.ctxs) (hp : s.pool = u.pool)
    (config : (s.lane l).ctl.config = (u.lane l).ctl.config) (sub : ∀ e ∈ es, e ∈ (s.lane l).tx.inFlight) :
    ∃ t, u.retransmit l es = .ok t :=
  ⟨_, retransmit_formable fun e he => (formable_congr hc hp config).mp (h.formable e (sub e he))⟩

theorem retryOr_total {again : State → Except Fault State}
    (total : ∃ t, again (s.modTx l fun x => { x with retry := x.retry + 1 }) = .ok t) : ∃ t, s.retryOr l again = .ok t := by
  unfold State.retryOr
  dsimp only
  split
  · exact ⟨_, rfl⟩
  · exact total

theorem Sound.ackExpiry_total (h : Sound s) : ∃ t, s.ackExpiry l = .ok t := by
  unfold State.ackExpiry
  split
  · refine retryOr_total ?_
    obtain ⟨t, ok⟩ := h.retransmit_ok (u := s.modTx l fun x => { x with retry := x.retry + 1 }) (l := l)
      (es := (s.lane l).tx.inFlight) rfl rfl (by rw [lane_modTx_same]) fun e he => he
    rw [lane_modTx_same, ok]
    exact ⟨_, rfl⟩
  · exact ⟨_, rfl⟩

theorem Sound.takeNak_total (h : Sound s) (n : Byte) : ∃ t, s.takeNak l n = .ok t := by
  unfold State.takeNak
  split
  · split
    · refine retryOr_total ?_
      obtain ⟨t, ok⟩ := h.retransmit_ok (u := s.modTx l fun x => { x with retry := x.retry + 1 }) (l := l)
        (es := fromSeq (s.lane l).tx.inFlight (n.setWidth 4)) rfl rfl (by rw [lane_modTx_same])
        fun e he => mem_of_mem_fromSeq he
      rw [lane_modTx_same, ok]
      exact ⟨_, rfl⟩
    · exact retryOr_total ⟨_, rfl⟩
    all_goals exact ⟨_, rfl⟩
  · exact ⟨_, rfl⟩

/-- A lane UP again after a hold, its ack timer running (R97). -/
def State.readied (s : State) (l : LaneId) : State :=
  ((s.modCtl l fun c => { c with holdTimer := none, state := .up }).postLaneState l .ready).startAckTimer l

theorem Sound.takeReady_total (h : Sound s) : ∃ t, s.takeReady l = .ok t := by
  unfold State.takeReady
  split
  · dsimp only
    split
    · exact ⟨_, rfl⟩
    · split
      · exact ⟨_, rfl⟩
      · next d _ =>
        obtain ⟨t, ok⟩ := h.retransmit_ok (u := s.readied l) (l := l)
          (es := fromSeq ((s.readied l).lane l).tx.inFlight d) rfl rfl (by simp [State.readied, State.startAckTimer])
          fun e he => by simpa [State.readied, State.startAckTimer] using mem_of_mem_fromSeq he
        unfold State.readied at ok
        rw [ok]
        exact ⟨_, rfl⟩
  all_goals exact ⟨_, rfl⟩

theorem unlessHeld_total {e : Host.Outcome State Fault Refusal} (h : ∃ t, e = .next t) : ∃ t, unlessHeld s e = .next t := by
  unfold unlessHeld
  split
  · exact ⟨s, rfl⟩
  · exact h

theorem Sound.onFrame_total (h : Sound s) {frame : List Byte} {owner : State → Except Fault State}
    (total : ∀ u, Sound u → ∃ t, owner u = .ok t) : ∃ t, onFrame s l frame owner = .next t := by
  unfold onFrame
  refine unlessHeld_total ?_
  split
  · exact ⟨s, rfl⟩
  · next u handed =>
    have alike : Alike s u := by
      rcases handOn_some handed with rfl | ⟨rx, rfl⟩
      · exact .refl _
      · exact .modRcv s l _
    obtain ⟨t, ok⟩ := total u (h.alike alike)
    exact ⟨t, outcomeOf_next.mpr ok⟩

/-- No command stops the part. -/
theorem Sound.exec_total (h : Sound s) (c : Instr) : ∃ t, exec c s = .next t := by
  cases c with
  | unknownKindRequest seq kind body =>
    simp only [exec, execUnknownKindRequest]
    split
    · exact ⟨_, rfl⟩
    · exact takeRequest_total ..
  | hostFrameReceived bytes => exact unlessHeld_total ⟨_, rfl⟩
  | gapDiscard => exact unlessHeld_total ⟨_, rfl⟩
  | replySend | replySent | noticeFrameEnd | hostRequestReset straps =>
    refine unlessHeld_total ?_
    split <;> exact ⟨_, rfl⟩
  | noticeSend =>
    refine unlessHeld_total ?_
    split
    · split
      · split <;> exact ⟨_, rfl⟩
      · exact ⟨_, rfl⟩
    · exact ⟨_, rfl⟩
  | powerOn straps =>
    simp only [exec, execPowerOn]
    split <;> exact ⟨_, rfl⟩
  | resetPin straps =>
    simp only [exec, execResetPin]
    split <;> exact ⟨_, rfl⟩
  | resetnLow => exact unlessHeld_total ⟨_, rfl⟩
  | hello l window id => exact h.onFrame_total fun _ _ => ⟨_, rfl⟩
  | ack l n => exact h.onFrame_total fun _ _ => ⟨_, rfl⟩
  | nak l n => exact h.onFrame_total fun _ hu => hu.takeNak_total n
  | hold l => exact h.onFrame_total fun _ _ => ⟨_, rfl⟩
  | ready l => exact h.onFrame_total fun _ hu => hu.takeReady_total
  | reply l bitByte tag code body =>
    simp only [exec, execReply]
    split
    · exact h.onFrame_total fun _ _ => ⟨_, rfl⟩
    · exact ⟨_, rfl⟩
  | ackTimerExpiry l =>
    obtain ⟨t, ok⟩ := h.ackExpiry_total (l := l)
    exact unlessHeld_total ⟨t, outcomeOf_next.mpr ok⟩
  | dataCut l =>
    obtain ⟨t, ok, -⟩ := h.dataCut (l := l)
    exact unlessHeld_total ⟨t, outcomeOf_next.mpr ok⟩
  | laneFrameDiscard l bytes => exact unlessHeld_total ⟨_, rfl⟩
  | probeTimerExpiry l | holdTimerExpiry l | cancelCut l | laneFrameSend l => exact unlessHeld_total ⟨_, rfl⟩
  | _ => exact takeRequest_total ..

end

/-- One step answers a next state. -/
theorem Sound.step_total {s : State} (h : Sound s) : ∃ t, step s = .next t := by
  unfold step
  split
  · exact ⟨s, rfl⟩
  · next c rest _ =>
    have taken : Sound { s with pending := rest } := h.alike (.of_fields rfl rfl rfl rfl rfl)
    exact taken.exec_total c

theorem Sound.step_flow {s t : State} (h : Sound s) (stepped : step s = .next t) : t.FlowWith t.flight := by
  obtain ⟨v, alike, u, event, after⟩ := step_reaches stepped
  exact flowWith_alike ((h.alike alike).event event) after

/-- Settles O59: a step is one event, which moves each job's positions together with its frames in flight; the frames it forms
are those whose records the flow says to exist. -/
theorem noStepStopsThePart : Obligations.NoStepStopsThePart := by
  unfold Obligations.NoStepStopsThePart
  intro s lane store schedule flow
  have sound := sound_of_laws lane store schedule flow
  obtain ⟨t, stepped⟩ := sound.step_total
  have flow' := (flowLaw_iff t).mpr (sound.step_flow stepped)
  exact ⟨t, stepped, flow', laws_of_flowLaw flow'⟩

end Sys2Proof.Machine
end

-- ==== Proofs: Staging requests ====
section
/-! PROOFS. Staging requests: WRITE, READ and PIN_MAP (R27 to R29, R35). -/

namespace Sys2Proof.Machine

/-! ### Bytes placed and bytes read (R28, R29) -/

/-- Every byte of a block written is read back (R28). -/
theorem readByte_writeBytes_inside {m : Memory} {x : Nat} {bs : List Byte} (hm : memoryWf m = true)
    (hx : x + bs.length ≤ Config.stagingBytes) (i : Nat) (h : i < bs.length) :
    readByte (writeBytes m x bs) (x + i) = bs[i] := by
  induction bs generalizing m x i with
  | nil => exact absurd h (Nat.not_lt_zero i)
  | cons b bs ih =>
    simp only [List.length_cons] at hx h
    cases i with
    | zero =>
      calc readByte (writeBytes (writeByte m x b) (x + 1) bs) x
          _ = readByte (writeByte m x b) x := readByte_writeBytes_outside _ bs (.inl (Nat.lt_succ_self x))
          _ = b := readByte_writeByte_same hm x b
    | succ i =>
      have canonical : memoryWf (writeByte m x b) = true := writeByte_wf hm b (by omega)
      have later := ih canonical (x := x + 1) (by omega) i (by omega)
      rwa [Nat.add_right_comm] at later

theorem readBytes_getElem (m : Memory) {x n : Nat} (i : Nat) (h : i < (readBytes m x n).length) :
    (readBytes m x n)[i] = readByte m (x + i) := by
  induction n generalizing x i with
  | zero => exact absurd h (Nat.not_lt_zero i)
  | succ n ih =>
    cases i with
    | zero => rfl
    | succ i =>
      simp only [readBytes, List.getElem_cons_succ]
      rw [ih, Nat.add_right_comm]
      rfl

/-! ### The pin check (R27) -/

theorem segmentTouches_iff (x n p : Nat) : segmentTouches { offset := x, length := n } p = true ↔ touchesPage x n p := by
  simp only [segmentTouches, Bool.and_eq_true, decide_eq_true_eq]
  rfl

section
variable {pins : Vector Nat 64} {x n : Nat}

/-- No page of the range is pinned. -/
theorem lowestPinned_none : lowestPinned pins x n = none ↔ ∀ p : PageId, touchesPage x n p.val → pins[p] = 0 := by
  simp only [lowestPinned, List.find?_eq_none, List.mem_finRange, true_imp_iff, Bool.and_eq_true, segmentTouches_iff,
    bne_iff_ne, not_and, not_not]

/-- The page is pinned, and no lower page of the range is. -/
theorem lowestPinned_some {p : PageId} (touched : touchesPage x n p.val) (pinned : pins[p] ≠ 0)
    (lower : ∀ q : PageId, q < p → touchesPage x n q.val → pins[q] = 0) : lowestPinned pins x n = some p := by
  rw [lowestPinned, List.find?_eq_some_iff_getElem]
  refine ⟨?_, p.val, by simp, by simp, fun j hj => ?_⟩
  · rw [Bool.and_eq_true, segmentTouches_iff]
    exact ⟨touched, bne_iff_ne.mpr pinned⟩
  · rw [List.getElem_finRange, Bool.not_eq_true', Bool.and_eq_false_imp, segmentTouches_iff]
    exact fun touches => bne_eq_false_iff_eq.mpr (lower _ hj touches)

end

/-! ### WRITE (R27, R28) -/

/-- The numbers of bytes that one WRITE or READ may transfer (R27, R29). -/
theorem transferLength_ok {n : Nat} (some_byte : 1 ≤ n) (few : n ≤ 512) : ¬ (n < 1 ∨ Config.maxTransfer < n) := by
  simp only [Config.maxTransfer]
  omega

/-- Four bytes carry the number they were made of (R180). -/
theorem le32_extractLsb' (x : BitVec 32) :
    le32 (x.extractLsb' 0 8) (x.extractLsb' 8 8) (x.extractLsb' 16 8) (x.extractLsb' 24 8) = x.toNat := by
  simpa only [BitVec.ofNat_toNat, BitVec.setWidth_eq] using le32_bytes32 x.isLt

theorem performWrite_badLength {body : List Byte} (s : State) (h : body.length < 5 ∨ 516 < body.length) :
    performWrite body s = refuse s .badLength := by
  unfold performWrite
  split
  · simp only [List.length_cons] at h
    exact if_pos (by simp only [Config.maxTransfer]; omega)
  · rfl

section
variable (s : State) (x : BitVec 32) {data : List Byte}

theorem performWrite_outOfRange (some_byte : 1 ≤ data.length) (few : data.length ≤ 512)
    (beyond : Config.stagingBytes < x.toNat + data.length) :
    performWrite (bytes32 x ++ data) s = refuse s .outOfRange := by
  simp only [bytes32, List.cons_append, List.nil_append, performWrite, le32_extractLsb',
    if_neg (transferLength_ok some_byte few), if_pos beyond]

theorem performWrite_pinned {p : PageId} (some_byte : 1 ≤ data.length) (few : data.length ≤ 512)
    (inside : x.toNat + data.length ≤ Config.stagingBytes) (lowest : lowestPinned s.pins x.toNat data.length = some p) :
    performWrite (bytes32 x ++ data) s = { state := s, body := [statusCode .pinned, natByte p.val] } := by
  simp only [bytes32, List.cons_append, List.nil_append, performWrite, le32_extractLsb',
    if_neg (transferLength_ok some_byte few), if_neg (not_lt.mpr inside), lowest]

theorem performWrite_passes (some_byte : 1 ≤ data.length) (few : data.length ≤ 512)
    (inside : x.toNat + data.length ≤ Config.stagingBytes) (unpinned : lowestPinned s.pins x.toNat data.length = none) :
    performWrite (bytes32 x ++ data) s =
      { state := { s with mem := writeBytes s.mem x.toNat data }, body := [statusCode .ok] } := by
  simp only [bytes32, List.cons_append, List.nil_append, performWrite, le32_extractLsb',
    if_neg (transferLength_ok some_byte few), if_neg (not_lt.mpr inside), unpinned]

end

/-- Settles O12: each check in turn, behind those before it. -/
theorem writeIsCheckedInOrder : Obligations.WriteIsCheckedInOrder := by
  unfold Obligations.WriteIsCheckedInOrder
  intro s seq body h
  refine ⟨fun len => takeRequest_replies h rfl (performWrite_badLength _ len), ?_⟩
  rintro x data rfl some_byte few
  refine ⟨fun beyond => takeRequest_replies h rfl (performWrite_outOfRange _ x some_byte few beyond),
    fun inside p touched pinned lower => takeRequest_replies h rfl ?_⟩
  exact performWrite_pinned s.taking x some_byte few inside (lowestPinned_some touched pinned lower)

/-- Settles O13: the checks pass, and the block is placed. -/
theorem writePlacesEveryByte : Obligations.WritePlacesEveryByte := by
  unfold Obligations.WritePlacesEveryByte
  intro s seq x data memory h some_byte few inside unpinned
  have performed := performWrite_passes s.taking x some_byte few inside (lowestPinned_none.mpr unpinned)
  refine ⟨writeBytes s.mem x.toNat data, ?_, readByte_writeBytes_inside memory inside,
    fun a outside => readByte_writeBytes_outside s.mem data outside⟩
  have answered := takeRequest_performs (perform := performWrite (bytes32 x ++ data)) h rfl (by rw [performed])
  rw [performed] at answered
  exact answered

/-! ### READ (R29) -/

theorem performRead_badLength {body : List Byte} (s : State) (h : body.length ≠ 6) :
    performRead body s = refuse s .badLength := by
  unfold performRead
  split
  · exact absurd rfl h
  · rfl

/-- What READ does once the body's length has been checked (R29). -/
theorem performRead_fields (s : State) (x : BitVec 32) (n : Word16) :
    performRead (bytes32 x ++ bytes16 n) s =
      if n.toNat < 1 ∨ Config.maxTransfer < n.toNat then refuse s .badValue
      else if Config.stagingBytes < x.toNat + n.toNat then refuse s .outOfRange
      else { state := s, body := statusCode .ok :: readBytes s.mem x.toNat n.toNat } := by
  simp only [bytes32, bytes16, List.cons_append, List.nil_append, performRead, le32_extractLsb', le16_bytes16]

/-- Settles O15: each check in turn, behind those before it; then the bytes. -/
theorem readReturnsTheBytes : Obligations.ReadReturnsTheBytes := by
  unfold Obligations.ReadReturnsTheBytes
  intro s seq body h
  refine ⟨fun len => takeRequest_replies h rfl (performRead_badLength _ len), ?_⟩
  rintro x n rfl
  have performed := performRead_fields s.taking x n
  refine ⟨fun bad => takeRequest_replies h rfl ?_, fun some_byte few beyond => takeRequest_replies h rfl ?_,
    fun some_byte few inside => ⟨readBytes s.mem x.toNat n.toNat, takeRequest_replies h rfl ?_, readBytes_length _ _ _,
      readBytes_getElem s.mem⟩⟩
  · exact performed.trans (if_pos bad)
  all_goals rw [performed, if_neg (transferLength_ok some_byte few)]
  · exact if_pos beyond
  · exact if_neg (not_lt.mpr inside)

/-! ### PIN_MAP (R35) -/

/-- Settles O16: the reply lists the Page Pin Table in page order. -/
theorem pinMapReportsTheCounts : Obligations.PinMapReportsTheCounts := by
  unfold Obligations.PinMapReportsTheCounts
  intro s seq body h
  refine ⟨fun empty => ⟨s.pins.toList.map natByte, takeRequest_replies h rfl (if_pos empty), by simp, fun p => ?_⟩,
    fun nonempty => takeRequest_replies h rfl (if_neg nonempty)⟩
  have count : s.pins.toList[p.val]? = some s.pins[p] := by simp
  rw [List.getElem?_map, count]
  rfl

end Sys2Proof.Machine
end

-- ==== Proofs: Staging memory ====
section
/-! PROOFS. Staging memory: only WRITE and the part resets change a byte, and WRITE none of a pinned page (R28, R36). -/

namespace Sys2Proof.Machine

/-! ### Scheduling leaves staging memory -/

section
variable (s : State) (l : LaneId) (c : CtxId)

@[simp] theorem select_mem : (s.select l).mem = s.mem := (select_leaves s l).mem

@[simp] theorem selectIf_mem (was : JobState) : (s.selectIf was l).mem = s.mem := by
  unfold State.selectIf
  split
  · exact select_mem s l
  · rfl

@[simp] theorem vacate_mem : (s.vacate l c).mem = s.mem := rfl

@[simp] theorem joinTail_mem : (s.joinTail c).mem = s.mem := rfl

@[simp] theorem admitJob_mem (cls : ClassId) (tag : Tag) (ds : List Descriptor) :
    (s.admitJob c l cls tag ds).mem = s.mem := rfl

@[simp] theorem unqueue_mem : (s.unqueue c).mem = s.mem := rfl

@[simp] theorem splice_mem : (s.splice l c).mem = s.mem := by
  unfold State.splice
  dsimp only
  rw [modCtx_mem]
  split
  · rfl
  · split <;> rfl

@[simp] theorem withdraw_mem : (s.withdraw c).mem = s.mem := by
  rcases withdraw_cases s c with ⟨-, eq⟩ | ⟨-, eq⟩ | ⟨-, eq⟩ | eq <;> simp [eq]

@[simp] theorem endJobs_mem (goes : Context → Bool) (reason : EndReason) : (s.endJobs l goes reason).mem = s.mem := by
  unfold State.endJobs
  generalize allCtxs = cs
  induction cs generalizing s with
  | nil => rfl
  | cons c cs ih =>
    rw [List.foldl_cons, ih]
    dsimp only
    split
    · rw [freeCtx_mem, withdraw_mem]
    · rfl

@[simp] theorem suspendAtBoundary_mem : (s.suspendAtBoundary l c).mem = s.mem := select_mem _ l

@[simp] theorem preempt_mem (k : ClassId) (h : CtxId) : (s.preempt l c k h).mem = s.mem := rfl

@[simp] theorem evalBoundary_mem : (s.evalBoundary l).mem = s.mem := by
  rcases evalBoundary_cases s l with eq | ⟨c, -, -, ⟨-, eq⟩ | ⟨-, k, h, -, -, eq⟩⟩ <;> simp [eq]

@[simp] theorem drain_mem : (s.drain l c).mem = s.mem := select_mem _ l

/-! ### So do the transmitter and the controller -/

@[simp] theorem launch_mem (what : SentFrame) (frame : LaneFrame) : (s.launch l c what frame).mem = s.mem := rfl

@[simp] theorem advance_mem (last : Bool) : (s.advance l c last).mem = s.mem := by
  unfold State.advance
  dsimp only
  split
  · split <;> simp
  · rfl

@[simp] theorem cancelCut_mem : (s.cancelCut l).mem = s.mem := by
  unfold State.cancelCut
  split
  · split <;> rfl
  · rfl

@[simp] theorem enterFault_mem (why : FaultCause) (cause : LaneCause) : (s.enterFault l why cause).mem = s.mem :=
  (rollback_leaves (s := s.faulted l why cause) (l := l)).mem

@[simp] theorem startAckTimer_mem : (s.startAckTimer l).mem = s.mem := rfl

@[simp] theorem synchronise_mem (window : Nat) (id : Word16) : (s.synchronise l window id).mem = s.mem := by
  unfold State.synchronise
  dsimp only
  split <;> simp

@[simp] theorem stationRestart_mem (window : Nat) (id : Word16) : (s.stationRestart l window id).mem = s.mem := by
  simp [State.stationRestart]

@[simp] theorem resetLane_mem : (s.resetLane l).mem = s.mem := by simp [State.resetLane]

@[simp] theorem account_mem (e : InFlight) : (s.account l e).mem = s.mem := by
  obtain ⟨q, c, what⟩ := e
  cases what with
  | cancel => exact freeCtx_mem s c _
  | data k f flags =>
    have acked : (s.segmentAcked l c k).mem = s.mem := by unfold State.segmentAcked; split <;> rfl
    cases hl : flags.last with
    | false => rw [account_notLast s l q c k f hl]
    | true =>
      rw [account_last s l q c k f hl]
      split
      · rw [freeCtx_mem, acked]
      · exact acked

@[simp] theorem accounts_mem (es : List InFlight) : (es.foldl (fun s e => s.account l e) s).mem = s.mem := by
  induction es generalizing s with
  | nil => rfl
  | cons e es ih => rw [List.foldl_cons, ih, account_mem]

@[simp] theorem takeAck_mem (n : Byte) : (s.takeAck l n).mem = s.mem := by
  rcases takeAck_cases s l n with eq | ⟨removed, rest, -, -, eq⟩
  · rw [eq]
  · obtain ⟨timer, eq'⟩ := acknowledge_eq s l removed rest
    rw [eq, eq', State.settleAck, modPair_mem, modTx_mem, accounts_mem, modTx_mem]

@[simp] theorem takeHello_mem (window : Byte) (id : Word16) : (s.takeHello l window id).mem = s.mem := by
  rcases takeHello_cases s l window id with eq | ⟨-, -, ⟨-, eq⟩ | ⟨-, eq⟩⟩ <;> simp [eq]

@[simp] theorem takeHold_mem : (s.takeHold l).mem = s.mem := by
  unfold State.takeHold
  split <;> rfl

@[simp] theorem storeReply_mem (bit : Bool) (r : Return) : (s.storeReply l bit r).mem = s.mem := by
  unfold State.storeReply
  dsimp only
  split
  · rfl
  · split
    · split <;> rfl
    · rfl

@[simp] theorem takeReply_mem (bit : Byte) (r : Return) : (s.takeReply l bit r).mem = s.mem := by
  unfold State.takeReply
  split <;> simp

@[simp] theorem probeExpiry_mem : (s.probeExpiry l).mem = s.mem := by
  unfold State.probeExpiry
  split
  · split <;> simp
  · rfl

@[simp] theorem holdExpiry_mem : (s.holdExpiry l).mem = s.mem := by
  unfold State.holdExpiry
  split <;> simp

end

section
variable {s t : State} {l : LaneId} {c : CtxId} {es : List InFlight}

theorem cutData_mem (h : s.cutData l c = .ok t) : t.mem = s.mem := by
  unfold State.cutData at h
  dsimp only at h
  split at h
  · cases h
  · split at h
    · cases h
    · cases h
      rw [advance_mem, launch_mem]

theorem dataCut_mem (h : s.dataCut l = .ok t) : t.mem = s.mem := by
  unfold State.dataCut at h
  split at h
  · split at h
    · exact cutData_mem h
    · cases h; rfl
  · cases h; rfl

theorem retransmit_mem (h : s.retransmit l es = .ok t) : t.mem = s.mem := by
  obtain ⟨fs, -, rfl⟩ := retransmit_ok h
  rfl

theorem retryOr_mem {again : State → Except Fault State} (h : s.retryOr l again = .ok t)
    (ha : ∀ u, again u = .ok t → t.mem = u.mem) : t.mem = s.mem := by
  rcases retryOr_ok h with ⟨-, rfl⟩ | ⟨-, ok⟩
  · rw [enterFault_mem, modTx_mem]
  · exact (ha _ ok).trans (modTx_mem s l _)

/-- A retransmission that restarts the ack timer. -/
theorem retransmitTimed_mem (h : (match s.retransmit l es with
      | .error e => .error e
      | .ok u => .ok (u.startAckTimer l)) = Except.ok t) : t.mem = s.mem := by
  split at h
  · cases h
  · next ok => cases h; exact (startAckTimer_mem _ l).trans (retransmit_mem ok)

theorem takeNak_mem {n : Byte} (h : s.takeNak l n = .ok t) : t.mem = s.mem := by
  unfold State.takeNak at h
  split at h
  · split at h
    · exact retryOr_mem h fun u ok => retransmitTimed_mem ok
    · exact retryOr_mem h fun u ok => by cases ok; rfl
    all_goals cases h; rfl
  · cases h; rfl

theorem ackExpiry_mem (h : s.ackExpiry l = .ok t) : t.mem = s.mem := by
  unfold State.ackExpiry at h
  split at h
  · exact retryOr_mem h fun u ok => retransmitTimed_mem ok
  · cases h; rfl

theorem takeReady_mem (h : s.takeReady l = .ok t) : t.mem = s.mem := by
  unfold State.takeReady at h
  split at h
  · dsimp only at h
    split at h
    · cases h; rfl
    · split at h
      · cases h; rfl
      · split at h
        · cases h
        · next ok =>
          cases h
          exact (modTx_mem _ l _).trans ((retransmit_mem ok).trans (startAckTimer_mem _ l))
  all_goals cases h; rfl

/-! ### Requests that leave staging memory -/

theorem takeRequest_mem {r : Request} {k : Byte} {perform : State → Answer} (h : takeRequest s r k perform = .next t)
    (hp : ∀ v, (perform v).state.mem = v.mem) : t.mem = s.mem := by
  rcases takeRequest_next h with ⟨rfl, -⟩ | ⟨-, -, frame, -, rfl⟩ | ⟨-, -, -, a, rfl, rfl⟩
  · rfl
  · rfl
  · exact hp _

end

theorem onJob_mem {s : State} {body : List Byte} {act : CtxId → Answer} (h : ∀ c, (act c).state.mem = s.mem) :
    (onJob body s act).state.mem = s.mem := by
  unfold onJob
  split
  · rfl
  · split
    · rfl
    · exact h _

theorem onLane_mem {s : State} {body : List Byte} {act : LaneId → Answer} (h : ∀ l, (act l).state.mem = s.mem) :
    (onLane body s act).state.mem = s.mem := by
  unfold onLane
  split
  · split
    · rfl
    · exact h _
  · rfl

/-- A request whose body must be empty. -/
theorem emptyBody_mem {s : State} {body : List Byte} {a : Answer} {st : Status} (h : a.state.mem = s.mem) :
    (if body = [] then a else refuse s st).state.mem = s.mem := by
  split
  · exact h
  · rfl

section
variable (body : List Byte) (s : State)

theorem performRead_mem : (performRead body s).state.mem = s.mem := by
  unfold performRead
  split
  · dsimp only
    split
    · rfl
    · split <;> rfl
  · rfl

theorem performSubmit_mem : (performSubmit body s).state.mem = s.mem := by
  unfold performSubmit
  split
  · split
    · rfl
    · split
      · rfl
      · split
        · split
          · rfl
          · split
            · rfl
            · split
              · rfl
              · split
                · rfl
                · rw [select_mem, admitJob_mem]
        · rfl
  · rfl

theorem suspendJob_mem (c : CtxId) : (suspendJob s c).state.mem = s.mem := by
  unfold suspendJob
  split <;> simp [refuse]

theorem resumeJob_mem (c : CtxId) : (resumeJob s c).state.mem = s.mem := by
  unfold resumeJob
  split
  · simp
  · split <;> rfl
  all_goals rfl

theorem abortJob_mem (c : CtxId) : (abortJob s c).state.mem = s.mem := by
  unfold abortJob
  split
  · rfl
  · split <;> simp [State.abortStarted, State.abortUnstarted]

theorem performLaneConfig_mem : (performLaneConfig body s).state.mem = s.mem := by
  unfold performLaneConfig
  split
  · split
    · rfl
    · split
      · rfl
      · split <;> rfl
  · rfl

theorem performLaneOpen_mem : (performLaneOpen body s).state.mem = s.mem := onLane_mem fun l => by split <;> rfl

theorem performFetch_mem : (performFetch body s).state.mem = s.mem := onLane_mem fun l => by split <;> rfl

theorem performAckNotices_mem : (performAckNotices body s).state.mem = s.mem := by
  unfold performAckNotices
  split
  · split <;> rfl
  · rfl

end

/-! ### WRITE leaves the pinned pages -/

/-- A write to a range without a pinned page leaves the bytes of every pinned page (R28). -/
theorem readByte_writeBytes_pinned {pins : Vector Nat 64} {m : Memory} {x a : Nat} {data : List Byte} {p : PageId}
    (unpinned : lowestPinned pins x data.length = none) (page : a / 2048 = p.val) (pinned : pins[p] ≠ 0) :
    readByte (writeBytes m x data) a = readByte m a := by
  refine readByte_writeBytes_outside m data ?_
  by_contra inside
  have touched : touchesPage x data.length p.val := by
    unfold touchesPage
    omega
  exact pinned (lowestPinned_none.mp unpinned p touched)

theorem performWrite_pinnedPage {body : List Byte} {s : State} {a : Nat} {p : PageId} (page : a / 2048 = p.val)
    (pinned : s.pins[p] ≠ 0) : readByte (performWrite body s).state.mem a = readByte s.mem a := by
  unfold performWrite
  split
  · dsimp only
    split
    · rfl
    · split
      · rfl
      · split
        · rfl
        · next unpinned => exact readByte_writeBytes_pinned unpinned page pinned
  · rfl

theorem execWrite_pinnedPage {seq : Byte} {body : List Byte} {s t : State} {a : Nat} {p : PageId}
    (h : execWrite seq body s = .next t) (page : a / 2048 = p.val) (pinned : s.pins[p] ≠ 0) :
    readByte t.mem a = readByte s.mem a := by
  rcases takeRequest_next h with ⟨rfl, -⟩ | ⟨-, -, frame, -, rfl⟩ | ⟨-, -, -, answer, rfl, rfl⟩
  · rfl
  · rfl
  · exact performWrite_pinnedPage (s := s.taking) page pinned

/-! ### Every other command leaves staging memory -/

section
variable {s t : State} {l : LaneId}

theorem unlessHeld_mem {e : Host.Outcome State Fault Refusal} (h : unlessHeld s e = .next t)
    (he : e = .next t → t.mem = s.mem) : t.mem = s.mem := by
  rcases unlessHeld_next.mp h with ⟨-, rfl⟩ | ⟨-, h⟩
  · rfl
  · exact he h

theorem onFrame_mem {frame : List Byte} {owner : State → Except Fault State} (h : onFrame s l frame owner = .next t)
    (ho : ∀ v, owner v = .ok t → t.mem = v.mem) : t.mem = s.mem := by
  rcases onFrame_next h with rfl | ⟨u, hu, ok⟩
  · rfl
  · rcases handOn_some hu with rfl | ⟨rx, rfl⟩
    · exact ho _ ok
    · exact (ho _ ok).trans (modRcv_mem s l _)

/-- A station frame whose owner never stops the part. -/
theorem onFrame_mem_total {frame : List Byte} {owner : State → State}
    (h : onFrame s l frame (fun v => .ok (owner v)) = .next t) (ho : ∀ v, (owner v).mem = v.mem) : t.mem = s.mem :=
  onFrame_mem h fun v ok => by cases ok; exact ho v

theorem execNoticeSend_mem (h : execNoticeSend s = .next t) : t.mem = s.mem := by
  refine unlessHeld_mem h fun e => ?_
  split at e
  · split at e
    · split at e <;> cases e <;> rfl
    · cases e; rfl
  · cases e; rfl

/-- Staging memory is changed by WRITE and by the part resets alone (R28, R36). -/
theorem exec_mem {c : Instr} (noWrite : ∀ seq body, c ≠ .write seq body)
    (noReset : ∀ straps, c ≠ .hostRequestReset straps ∧ c ≠ .powerOn straps ∧ c ≠ .resetPin straps)
    (h : exec c s = .next t) : t.mem = s.mem := by
  cases c with
  | write seq body => exact absurd rfl (noWrite seq body)
  | hostRequestReset straps => exact absurd rfl (noReset straps).1
  | powerOn straps => exact absurd rfl (noReset straps).2.1
  | resetPin straps => exact absurd rfl (noReset straps).2.2
  | identify | reset | pinMap | rewindNotices => exact takeRequest_mem h fun v => emptyBody_mem rfl
  | read seq body => exact takeRequest_mem h (performRead_mem body)
  | submit seq body => exact takeRequest_mem h (performSubmit_mem body)
  | suspend => exact takeRequest_mem h fun v => onJob_mem (suspendJob_mem v)
  | resume => exact takeRequest_mem h fun v => onJob_mem (resumeJob_mem v)
  | abort => exact takeRequest_mem h fun v => onJob_mem (abortJob_mem v)
  | jobStatus => exact takeRequest_mem h fun v => onJob_mem fun _ => rfl
  | laneConfig seq body => exact takeRequest_mem h (performLaneConfig_mem body)
  | laneOpen seq body => exact takeRequest_mem h (performLaneOpen_mem body)
  | laneReset => exact takeRequest_mem h fun v => onLane_mem (resetLane_mem v)
  | laneStatus => exact takeRequest_mem h fun v => onLane_mem fun _ => rfl
  | fetch seq body => exact takeRequest_mem h (performFetch_mem body)
  | ackNotices seq body => exact takeRequest_mem h (performAckNotices_mem body)
  | unknownKindRequest seq kind body =>
    simp only [exec, execUnknownKindRequest] at h
    split at h
    · cases h; rfl
    · exact takeRequest_mem h fun v => rfl
  | hostFrameReceived | gapDiscard | resetnLow | laneFrameDiscard | laneFrameSend =>
    exact unlessHeld_mem h fun e => by cases e; rfl
  | replySend | replySent | noticeFrameEnd => exact unlessHeld_mem h fun e => by split at e <;> cases e <;> rfl
  | noticeSend => exact execNoticeSend_mem h
  | hello l window id => exact onFrame_mem_total h fun v => takeHello_mem v l window id
  | ack l n => exact onFrame_mem_total h fun v => takeAck_mem v l n
  | nak l n => exact onFrame_mem h fun v => takeNak_mem
  | hold l => exact onFrame_mem_total h fun v => takeHold_mem v l
  | ready l => exact onFrame_mem h fun v => takeReady_mem
  | reply l bit tag code body =>
    simp only [exec, execReply] at h
    split at h
    · exact onFrame_mem_total h fun v => takeReply_mem v l bit _
    · cases h; rfl
  | probeTimerExpiry l => exact unlessHeld_mem h fun e => by cases e; exact probeExpiry_mem s l
  | holdTimerExpiry l => exact unlessHeld_mem h fun e => by cases e; exact holdExpiry_mem s l
  | ackTimerExpiry l => exact unlessHeld_mem h fun e => ackExpiry_mem (outcomeOf_next.mp e)
  | dataCut l => exact unlessHeld_mem h fun e => dataCut_mem (outcomeOf_next.mp e)
  | cancelCut l => exact unlessHeld_mem h fun e => by cases e; exact cancelCut_mem s l

end

/-- Settles O14: WRITE leaves the pinned pages, and every other command that is no part reset leaves staging memory. -/
theorem pinnedPagesAreNeverWritten : Obligations.PinnedPagesAreNeverWritten := by
  unfold Obligations.PinnedPagesAreNeverWritten
  intro c s t a p noReset h page pinned
  by_cases write : ∃ seq body, c = .write seq body
  · obtain ⟨seq, body, rfl⟩ := write
    exact execWrite_pinnedPage h page pinned
  · rw [exec_mem (fun seq body eq => write ⟨seq, body, eq⟩) noReset h]

end Sys2Proof.Machine
end

-- ==== Proofs: Part resets ====
section
/-! PROOFS. Part resets: what the three resets leave, and RESETN low in between (R36, R177 to R179). -/

namespace Sys2Proof.Machine

/-! ### RESETN low holds the part (R178) -/

section
variable {s : State} (held : s.heldInReset = true)
include held

theorem takeRequest_held (r : Request) (k : Byte) (perform : State → Answer) : takeRequest s r k perform = .next s :=
  if_pos held

theorem unlessHeld_held (e : Host.Outcome State Fault Refusal) : unlessHeld s e = .next s := if_pos held

theorem onFrame_held (l : LaneId) (frame : List Byte) (owner : State → Except Fault State) :
    onFrame s l frame owner = .next s := unlessHeld_held held _

/-- With RESETN low, no command but the application of power and the rise of RESETN changes anything (R178). -/
theorem exec_held {c : Instr} (other : ∀ straps, c ≠ .powerOn straps ∧ c ≠ .resetPin straps) : exec c s = .next s := by
  cases c with
  | powerOn straps => exact absurd rfl (other straps).1
  | resetPin straps => exact absurd rfl (other straps).2
  | unknownKindRequest seq kind body =>
    by_cases known : kind ∈ requestKinds
    · exact if_pos known
    · exact (if_neg known).trans (takeRequest_held held _ _ _)
  | reply l bit tag code body =>
    by_cases fits : body.length ≤ Config.maxReplyBody
    · exact (if_pos fits).trans (onFrame_held held _ _ _)
    · exact if_neg fits
  | identify | reset | write | read | pinMap | submit | suspend | resume | abort | jobStatus | laneConfig | laneOpen
  | laneReset | laneStatus | fetch | ackNotices | rewindNotices => exact takeRequest_held held _ _ _
  | hello | ack | nak | hold | ready => exact onFrame_held held _ _ _
  | hostFrameReceived | gapDiscard | replySend | replySent | noticeSend | hostRequestReset | resetnLow | laneFrameDiscard
  | probeTimerExpiry | holdTimerExpiry | ackTimerExpiry | dataCut | cancelCut | laneFrameSend | noticeFrameEnd =>
    exact unlessHeld_held held _

end

/-! ### The reset commands (R177, R178) -/

theorem unlessHeld_running {s : State} (running : s.heldInReset = false) (e : Host.Outcome State Fault Refusal) :
    unlessHeld s e = e := if_neg (by simp [running])

section
variable {s : State} (straps : BitVec 2)

/-- The last byte of a RESET's reply resets the part, with staging memory kept (R36, R177). -/
theorem execHostRequestReset_awaited {bytes : List Byte} (running : s.heldInReset = false)
    (sending : s.host.out = .reply bytes true) :
    execHostRequestReset straps s = .next (s.partReset .hostRequest straps true) := by
  rw [execHostRequestReset, unlessHeld_running running, sending]

theorem execHostRequestReset_other (running : s.heldInReset = false) (other : ∀ bytes, s.host.out ≠ .reply bytes true) :
    execHostRequestReset straps s = .next s := by
  rw [execHostRequestReset, unlessHeld_running running]
  split
  · next sending => exact absurd sending (other _)
  · rfl

theorem execPowerOn_running (running : s.heldInReset = false) :
    execPowerOn straps s = .next (s.partReset .powerOn straps false) := if_neg (by simp [running])

theorem execPowerOn_held (held : s.heldInReset = true) : execPowerOn straps s = .next { s with powerOnDue := true } :=
  if_pos held

theorem execResetPin_held (held : s.heldInReset = true) :
    execResetPin straps s = .next (s.partReset (if s.powerOnDue then .powerOn else .resetPin) straps false) := if_pos held

theorem execResetPin_running (running : s.heldInReset = false) : execResetPin straps s = .next s := if_neg (by simp [running])

end

/-- RESETN going low cuts off the frame on HTXD and on every lane (R178). -/
def State.cutOff (s : State) : State := { s with
  heldInReset := true
  host := { s.host with out := .idle }
  lanes := Vector.ofFn fun l : LaneId => { s.lane l with pair := { (s.lane l).pair with sending := none } } }

theorem lane_cutOff (s : State) (l : LaneId) :
    s.cutOff.lane l = { s.lane l with pair := { (s.lane l).pair with sending := none } } := by
  simp [State.cutOff, State.lane]

theorem execResetnLow_running {s : State} (running : s.heldInReset = false) : execResetnLow s = .next s.cutOff :=
  unlessHeld_running running _

/-- Settles O53: each command by whether RESETN is low. -/
theorem partResetsPostReady : Obligations.PartResetsPostReady := by
  unfold Obligations.PartResetsPostReady
  intro s straps after
  refine ⟨fun running bytes sending => execHostRequestReset_awaited straps running sending,
    execHostRequestReset_other straps, execPowerOn_running straps, execPowerOn_held straps, fun held due => ?_,
    fun held due => ?_, execResetPin_running straps,
    fun running => ⟨s.cutOff, execResetnLow_running running, rfl, lane_cutOff s⟩, fun held c other => exec_held held other⟩
  all_goals
    refine (execResetPin_held straps held).trans ?_
    rw [due]
    rfl

end Sys2Proof.Machine
end

-- ==== Proofs: Places ====
section
/-! PROOFS. Places: the laws of the schedulers said lane by lane and job by job, and what each scheduling operation does to
the order of its lane (R38 to R56). -/

namespace Sys2Proof.Machine

/-! ### A lane in order, and a job's own record -/

/-- The lane's line falls in priority and leaves room for a running job in front, and no job is queued twice (R39, R40). -/
structure LaneOrder (s : State) (l : LaneId) (line : List CtxId) : Prop extends LaneLine s l line where
  queues : ∀ k : ClassId, (s.lane l).sched.ready[k].Nodup
  falling : line.Pairwise fun a b => (s.ctx a).cls < (s.ctx b).cls
  behind : line.length ≤ (s.lane l).sched.running.toList.length + 3

/-- In UP and HELD the running slot of the lane is empty only while there is no candidate (R42). -/
def LaneIdle (s : State) (l : LaneId) : Prop :=
  selects (s.lane l).ctl.state = true → (s.lane l).sched.running = none →
    (s.lane l).sched.resume = none ∧ bestReady (s.lane l).sched.ready = none

/-- What a record says by itself: only a running or PREEMPTED job has a link, only a running one a pending suspension, and
only a started one drains or aborts (R39, R62). -/
structure JobLaw (x : Context) : Prop where
  link : x.state ≠ .running → x.state ≠ .preempted → x.link = none
  pending : x.state ≠ .running → x.suspendPending = false
  started : x.state = .draining ∨ x.state = .aborting → x.started = true

/-- Every lane is in order, and every record keeps the law of its job. -/
structure Ordered (s : State) : Prop where
  lanes : ∀ l, ∃ line, LaneOrder s l line
  jobs : ∀ c, JobLaw (s.ctx c)

/-- The laws of the schedulers, by lanes and jobs. -/
structure Scheduled (s : State) : Prop extends Ordered s where
  idle : ∀ l, LaneIdle s l
  cancel : CancelLaw s

section
variable {s t u : State} {l : LaneId} {line : List CtxId}

theorem laneOrder_of_scheduleLaw (h : ScheduleLaw s) (l : LaneId) :
    LaneOrder s l ((s.lane l).sched.running.toList ++ chainOf s l) := by
  obtain ⟨place, chain, -⟩ := id h
  obtain ⟨short, -, falling, -⟩ := chain l
  refine { laneLine_of_scheduleLaw h l with queues := fun k => ?_, falling := falling, behind := ?_ }
  · refine List.nodup_iff_count_le_one.mpr fun c => ?_
    have total := (place c).1 l
    rw [count_flatten_ready] at total
    calc (s.lane l).sched.ready[k].count c ≤ ∑ j : ClassId, (s.lane l).sched.ready[j].count c :=
          Finset.single_le_sum (f := fun j : ClassId => (s.lane l).sched.ready[j].count c) (fun _ _ => Nat.zero_le _)
            (Finset.mem_univ k)
      _ ≤ 1 := by rw [total]; split <;> omega
  · rw [List.length_append]
    omega

/-- A QUEUED job stands in the queues of its lane once, any other job not at all (R39). -/
theorem LaneOrder.count_queues (h : LaneOrder s l line) (c : CtxId) : (s.lane l).sched.ready.toList.flatten.count c =
    if (s.ctx c).state = .queued ∧ (s.ctx c).lane = l then 1 else 0 := by
  have each : ∀ k : ClassId, (s.lane l).sched.ready[k].count c =
      if (s.ctx c).cls = k then (if (s.ctx c).state = .queued ∧ (s.ctx c).lane = l then 1 else 0) else 0 := fun k => by
    have mem := h.queued c k
    rw [(h.queues k).count]
    by_cases hk : (s.ctx c).cls = k <;> simp only [mem, hk, and_true, and_false, if_true, if_false]
  rw [count_flatten_ready, Finset.sum_congr rfl fun k _ => each k, Finset.sum_ite_eq, if_pos (Finset.mem_univ _)]

theorem LaneOrder.mem_chain (h : LaneOrder s l line) (c : CtxId) :
    c ∈ chainOf s l ↔ (s.ctx c).state = .preempted ∧ (s.ctx c).lane = l := by
  have distinct := h.nodup
  have mem := h.members c
  rw [← h.eq_chain] at distinct mem
  rw [List.mem_append, Option.mem_toList, h.running] at mem
  have apart : c ∈ chainOf s l → ¬ ((s.ctx c).state = .running ∧ (s.ctx c).lane = l) := fun hc runs =>
    (List.nodup_append.mp distinct).2.2 c (Option.mem_toList.mpr ((h.running c).mpr runs)) c hc rfl
  constructor
  · intro hc
    obtain ⟨state | state, lane⟩ := mem.mp (.inr hc)
    · exact absurd ⟨state, lane⟩ (apart hc)
    · exact ⟨state, lane⟩
  · rintro ⟨state, lane⟩
    rcases mem.mpr ⟨.inr state, lane⟩ with runs | hc
    · simp [state] at runs
    · exact hc

theorem LaneOrder.chain_length (h : LaneOrder s l line) : (chainOf s l).length ≤ 3 := by
  have behind := h.behind
  rw [← h.eq_chain, List.length_append] at behind
  omega

theorem placeLaw_of_scheduled (h : Scheduled s) : PlaceLaw s := by
  refine fun c => ⟨fun l => ?_, fun queued => ?_, fun l => ?_, fun l => ?_, (h.jobs c).link, (h.jobs c).pending⟩
  · obtain ⟨line, order⟩ := h.lanes l
    exact order.count_queues c
  · obtain ⟨line, order⟩ := h.lanes (s.ctx c).lane
    exact (order.queued c _).mpr ⟨queued, rfl, rfl⟩
  · obtain ⟨line, order⟩ := h.lanes l
    exact order.running c
  · obtain ⟨line, order⟩ := h.lanes l
    have distinct := order.nodup
    rw [← order.eq_chain] at distinct
    rw [(List.nodup_append.mp distinct).2.1.count]
    simp only [order.mem_chain]

theorem chainLaw_of_scheduled (h : Scheduled s) : ChainLaw s := fun l => by
  obtain ⟨line, order⟩ := h.lanes l
  exact ⟨order.chain_length, fun c => (order.mem_chain c).mp, order.eq_chain ▸ order.falling, order.exclusive⟩

/-- The laws of the schedulers are those of each lane and each job, and of the CANCELs. -/
theorem scheduleLaw_iff : ScheduleLaw s ↔ Scheduled s := by
  constructor
  · intro h
    obtain ⟨place, -, idle, cancel, started⟩ := id h
    refine ⟨⟨fun l => ⟨_, laneOrder_of_scheduleLaw h l⟩, fun c => ?_⟩, idle, cancel⟩
    obtain ⟨-, -, -, -, link, pending⟩ := place c
    exact ⟨link, pending, started c⟩
  · intro h
    exact ⟨placeLaw_of_scheduled h, chainLaw_of_scheduled h, h.idle, h.cancel, fun c => (h.jobs c).started⟩

/-! ### What a lane's order depends on -/

/-- What the order of a lane reads of a job. -/
def Context.seat (x : Context) : JobState × LaneId × ClassId × Option CtxId := (x.state, x.lane, x.cls, x.link)

/-- The job has a place in a Lane Scheduler (R39). -/
def Context.Placed (x : Context) : Prop := x.state = .queued ∨ x.state = .running ∨ x.state = .preempted

/-- The job keeps its seat, or it is no job of the kind `seen`, before or after. -/
def SeatKept (seen : Context → Prop) (x y : Context) : Prop := y.seat = x.seat ∨ (¬ seen x ∧ ¬ seen y)

theorem seat_eq {x y : Context} (h : y.seat = x.seat) :
    y.state = x.state ∧ y.lane = x.lane ∧ y.cls = x.cls ∧ y.link = x.link := by
  simpa [Context.seat] using h

theorem SeatKept.mono {seen seen' : Context → Prop} (sub : ∀ x, seen' x → seen x) {x y : Context} (h : SeatKept seen x y) :
    SeatKept seen' x y :=
  h.imp_right fun ⟨hx, hy⟩ => ⟨fun h => hx (sub x h), fun h => hy (sub y h)⟩

/-- A kind that the seat decides. -/
theorem SeatKept.trans {seen : Context → Prop} (decided : ∀ {x y : Context}, y.seat = x.seat → seen y → seen x)
    {x y z : Context} (h : SeatKept seen x y) (h' : SeatKept seen y z) : SeatKept seen x z := by
  rcases h with h | ⟨hx, hy⟩
  · rcases h' with h' | ⟨hy, hz⟩
    · exact .inl (h'.trans h)
    · exact .inr ⟨fun seen_x => hy (decided h.symm seen_x), hz⟩
  · rcases h' with h' | ⟨-, hz⟩
    · exact .inr ⟨hx, fun seen_z => hy (decided h' seen_z)⟩
    · exact .inr ⟨hx, hz⟩

/-- A lane's order is a matter of its scheduler and of the seats of the jobs with a place in the lane. -/
theorem LaneOrder.of_seats (h : LaneOrder s l line) (sched : (t.lane l).sched = (s.lane l).sched)
    (seats : ∀ c, SeatKept (fun x => x.Placed ∧ x.lane = l) (s.ctx c) (t.ctx c)) : LaneOrder t l line := by
  have in_line : ∀ c ∈ line, (t.ctx c).cls = (s.ctx c).cls ∧ (t.ctx c).link = (s.ctx c).link := fun c hc => by
    obtain ⟨state, lane⟩ := (h.members c).mp hc
    rcases seats c with same | ⟨unplaced, -⟩
    · exact (seat_eq same).2.2
    · exact absurd ⟨.inr state, lane⟩ unplaced
  have seat : ∀ c, ((t.ctx c).state = (s.ctx c).state ∧ (t.ctx c).lane = (s.ctx c).lane ∧ (t.ctx c).cls = (s.ctx c).cls) ∨
      ((¬ ((s.ctx c).Placed ∧ (s.ctx c).lane = l)) ∧ ¬ ((t.ctx c).Placed ∧ (t.ctx c).lane = l)) := fun c =>
    (seats c).imp_left fun same => ⟨(seat_eq same).1, (seat_eq same).2.1, (seat_eq same).2.2.1⟩
  unfold Context.Placed at seat
  refine { linked := ?_, nodup := h.nodup, short := h.short, members := fun c => ?_, running := fun c => ?_,
           exclusive := ?_, queued := fun c k => ?_, queues := ?_, falling := ?_, behind := ?_ }
  · rw [sched]
    exact linked_congr (fun d hd => (in_line d hd).2) h.linked
  · rw [h.members]
    rcases seat c with ⟨state, lane, -⟩ | ⟨before, after⟩
    · rw [state, lane]
    · tauto
  · rw [sched, h.running]
    rcases seat c with ⟨state, lane, -⟩ | ⟨before, after⟩
    · rw [state, lane]
    · tauto
  · rw [sched]
    exact h.exclusive
  · rw [sched, h.queued]
    rcases seat c with ⟨state, lane, cls⟩ | ⟨before, after⟩
    · rw [state, lane, cls]
    · tauto
  · rw [sched]
    exact h.queues
  · exact h.falling.imp_of_mem fun {a b} ha hb lt => by rwa [(in_line a ha).1, (in_line b hb).1]
  · rw [sched]
    exact h.behind

/-! ### A job joins a queue, leaves its place, or takes the slot -/

/-- A job without a place joins the tail of a queue (R41). -/
theorem LaneOrder.join {c : CtxId} {k : ClassId} (h : LaneOrder s l line)
    (sched : (t.lane l).sched = (s.lane l).sched.join k c) (unplaced : ¬ (s.ctx c).Placed)
    (own : (t.ctx c).state = .queued ∧ (t.ctx c).lane = l ∧ (t.ctx c).cls = k) (others : ∀ d, d ≠ c → t.ctx d = s.ctx d) :
    LaneOrder t l line := by
  obtain ⟨state, lane, cls⟩ := own
  simp only [Context.Placed, not_or] at unplaced
  obtain ⟨not_queued, not_running, not_preempted⟩ := unplaced
  have notMem : ∀ j : ClassId, c ∉ (s.lane l).sched.ready[j] := fun j hc => not_queued ((h.queued c j).mp hc).1
  have notLine : c ∉ line := fun hc => ((h.members c).mp hc).1.elim not_running not_preempted
  have line_ctx : ∀ d ∈ line, t.ctx d = s.ctx d := fun d hd => others d fun e => notLine (e ▸ hd)
  refine { linked := ?_, nodup := h.nodup, short := h.short, members := fun d => ?_, running := fun d => ?_,
           exclusive := ?_, queued := fun d j => ?_, queues := fun j => ?_, falling := ?_, behind := ?_ }
  · rw [sched]
    exact linked_congr (fun d hd => by rw [line_ctx d hd]) h.linked
  · by_cases hd : d = c
    · subst hd; simp [notLine, state]
    · rw [others d hd, h.members]
  · rw [sched]
    by_cases hd : d = c
    · subst hd; simp [Scheduler.join, h.running, not_running, state]
    · rw [others d hd]; exact h.running d
  · rw [sched]
    exact h.exclusive
  · rw [sched, Scheduler.join, setQueue_get]
    by_cases hd : d = c
    · subst hd
      by_cases hk : k = j
      · simp [hk, state, lane, cls]
      · rw [if_neg hk, state, lane, cls]
        exact iff_of_false (notMem j) fun own => hk own.2.2
    · rw [others d hd, ← h.queued]
      by_cases hk : k = j
      · subst hk; simp [hd]
      · simp [hk]
  · rw [sched, Scheduler.join, setQueue_get]
    split
    · exact List.nodup_append.mpr ⟨h.queues k, List.nodup_singleton c, fun a ha b hb e => notMem k (by simp_all)⟩
    · exact h.queues j
  · exact h.falling.imp_of_mem fun {a b} ha hb lt => by rwa [line_ctx a ha, line_ctx b hb]
  · rw [sched]
    exact h.behind

/-- A line without one job leaves room for a running job in front. -/
theorem LaneOrder.behind_without (h : LaneOrder s l line) (c : CtxId) :
    (line.filter (· ≠ c)).length ≤ ((s.lane l).sched.running.filter (· ≠ c)).toList.length + 3 := by
  have behind := h.behind
  cases hr : (s.lane l).sched.running with
  | none =>
    rw [hr] at behind
    exact (List.length_filter_le _ _).trans behind
  | some r =>
    rw [hr] at behind
    simp only [Option.toList_some, List.length_singleton] at behind
    by_cases same : r = c
    · subst same
      have mem : r ∈ line := (h.members r).mpr (((h.running r).mp hr).imp_left .inl)
      have fewer : (line.filter (· ≠ r)).length < line.length :=
        List.length_filter_lt_length_iff_exists.mpr ⟨r, mem, by simp⟩
      omega
    · simp only [Option.filter, same, ne_eq, not_false_eq_true, decide_true, if_true, Option.toList_some,
        List.length_singleton]
      exact (List.length_filter_le _ _).trans behind

/-- A job withdrawn from its lane, once its record names no place any more (R56). -/
theorem LaneOrder.leave {c : CtxId} (h : LaneOrder s l line) (w : Withdrawn s t l c line)
    (sched : (u.lane l).sched = (t.lane l).sched) (own : ¬ (u.ctx c).Placed) (others : ∀ d, d ≠ c → u.ctx d = t.ctx d) :
    LaneOrder u l (line.filter (· ≠ c)) := by
  simp only [Context.Placed, not_or] at own
  obtain ⟨not_queued, not_running, not_preempted⟩ := own
  have kept : ∀ d, d ≠ c → ∃ o, u.ctx d = { s.ctx d with link := o } := fun d hd =>
    ⟨_, (others d hd).trans (w.others d hd)⟩
  refine { linked := ?_, nodup := h.nodup.filter _, short := (List.length_filter_le _ _).trans h.short,
           members := fun d => ?_, running := fun d => ?_, exclusive := ?_, queued := fun d k => ?_, queues := fun k => ?_,
           falling := ?_, behind := ?_ }
  · rw [sched]
    exact linked_congr (fun d hd => by rw [others d (by simpa using (List.mem_filter.mp hd).2)]) w.linked
  · by_cases hd : d = c
    · subst hd; simp [not_running, not_preempted]
    · obtain ⟨o, eq⟩ := kept d hd
      simp [List.mem_filter, hd, h.members, eq]
  · rw [sched, w.running]
    by_cases hd : d = c
    · subst hd; simp [not_running, Option.filter_eq_some_iff]
    · obtain ⟨o, eq⟩ := kept d hd
      simp [Option.filter_eq_some_iff, hd, h.running, eq]
  · rw [sched]
    exact w.exclusive
  · rw [sched, w.ready, List.mem_filter]
    by_cases hd : d = c
    · subst hd; simp [not_queued]
    · obtain ⟨o, eq⟩ := kept d hd
      rw [h.queued, eq]
      simp [hd]
  · rw [sched, w.ready]
    exact (h.queues k).filter _
  · refine (h.falling.sublist List.filter_sublist).imp_of_mem fun {a b} ha hb lt => ?_
    obtain ⟨o, eq⟩ := kept a (by simpa using (List.mem_filter.mp ha).2)
    obtain ⟨o', eq'⟩ := kept b (by simpa using (List.mem_filter.mp hb).2)
    rw [eq, eq']
    exact lt
  · rw [sched, w.running]
    exact h.behind_without c

/-- A line that falls in priority has at most one job of each of the four classes. -/
theorem length_le_four_of_falling {cs : List CtxId} (h : cs.Pairwise fun a b => (s.ctx a).cls < (s.ctx b).cls) :
    cs.length ≤ 4 := by
  have distinct : (cs.map fun c => (s.ctx c).cls).Nodup := List.pairwise_map.mpr (h.imp fun lt => ne_of_lt lt)
  simpa using distinct.length_le_card

/-- A job of higher priority than what heads the line may stand in front of it. -/
theorem LaneOrder.falling_cons {c : CtxId} (h : LaneOrder s l line)
    (higher : ∀ p, (s.lane l).sched.running.or (s.lane l).sched.resume = some p → (s.ctx c).cls < (s.ctx p).cls) :
    (c :: line).Pairwise fun a b => (s.ctx a).cls < (s.ctx b).cls := by
  have head := linked_head h.linked
  have order := h.falling
  refine List.pairwise_cons.mpr ⟨fun d hd => ?_, order⟩
  cases line with
  | nil => cases hd
  | cons p ps =>
    have above := higher p head.symm
    rcases List.mem_cons.mp hd with rfl | hd
    · exact above
    · exact above.trans ((List.pairwise_cons.mp order).1 d hd)

/-- What becomes of a job when another takes the slot of lane `l`: one that ran is PREEMPTED, any other stays (R43, R50). -/
structure StandsBehind (l : LaneId) (x y : Context) : Prop where
  lane : y.lane = x.lane
  cls : y.cls = x.cls
  link : y.link = x.link
  queued : y.state = .queued ↔ x.state = .queued
  idle : ¬ (y.state = .running ∧ y.lane = l)
  line : x.lane = l → (y.state = .preempted ↔ x.state = .running ∨ x.state = .preempted)

theorem LaneLine.standsBehind (h : LaneLine s l line) {d : CtxId} {y : Context}
    (eq : y = if (s.lane l).sched.running = some d then { s.ctx d with state := .preempted } else s.ctx d) :
    StandsBehind l (s.ctx d) y := by
  subst eq
  split
  · next runs =>
    have state := ((h.running d).mp runs).1
    exact ⟨rfl, rfl, rfl, by simp [state], by simp, fun _ => by simp [state]⟩
  · next idle =>
    have not_running : ¬ ((s.ctx d).state = .running ∧ (s.ctx d).lane = l) := fun runs => idle ((h.running d).mpr runs)
    exact ⟨rfl, rfl, rfl, Iff.rfl, not_running, fun hl => (or_iff_right fun hr => not_running ⟨hr, hl⟩).symm⟩

/-- A best ready head of higher priority than what heads the line takes the slot, the line behind it (R43, R50). -/
theorem LaneOrder.head_takes {c : CtxId} {k : ClassId} (h : LaneOrder s l line)
    (best : bestReady (s.lane l).sched.ready = some (k, c))
    (higher : ∀ p, (s.lane l).sched.running.or (s.lane l).sched.resume = some p → (s.ctx c).cls < (s.ctx p).cls)
    (sched : (t.lane l).sched = ⟨setQueue (s.lane l).sched.ready k (s.lane l).sched.ready[k].tail, some c, none⟩)
    (own : t.ctx c = { s.ctx c with
      state := .running, link := (s.lane l).sched.running.or (s.lane l).sched.resume })
    (others : ∀ d, d ≠ c → t.ctx d =
      if (s.lane l).sched.running = some d then { s.ctx d with state := .preempted } else s.ctx d) :
    LaneOrder t l (c :: line) := by
  obtain ⟨q, queue⟩ := bestReady_some best
  obtain ⟨queued, lane, cls⟩ := (h.queued c k).mp (bestReady_mem best)
  have distinct := h.queues k
  rw [queue, List.nodup_cons] at distinct
  have notLine : c ∉ line := fun hc => by
    have state := ((h.members c).mp hc).1
    simp [queued] at state
  have back : ∀ d, d ≠ c → StandsBehind l (s.ctx d) (t.ctx d) := fun d hd => h.standsBehind (others d hd)
  have line_back : ∀ d ∈ line, StandsBehind l (s.ctx d) (t.ctx d) := fun d hd => back d fun e => notLine (e ▸ hd)
  have falling : (c :: line).Pairwise fun a b => (t.ctx a).cls < (t.ctx b).cls := by
    have same : ∀ d ∈ c :: line, (t.ctx d).cls = (s.ctx d).cls :=
      List.forall_mem_cons.mpr ⟨by rw [own], fun d hd => (line_back d hd).cls⟩
    exact (h.falling_cons higher).imp_of_mem fun {a b} ha hb lt => by rwa [same a ha, same b hb]
  have short := length_le_four_of_falling falling
  refine { linked := ?_, nodup := List.nodup_cons.mpr ⟨notLine, h.nodup⟩, short := short, members := fun d => ?_,
           running := fun d => ?_, exclusive := fun _ => by rw [sched], queued := fun d j => ?_, queues := fun j => ?_,
           falling := falling, behind := by rw [sched]; exact short }
  · rw [sched, Option.some_or]
    refine ⟨rfl, ?_⟩
    rw [own]
    exact linked_congr (fun d hd => (line_back d hd).link) h.linked
  · by_cases hd : d = c
    · subst hd; simp [own, lane]
    · have b := back d hd
      rw [List.mem_cons, or_iff_right hd, h.members]
      constructor
      · rintro ⟨state, hl⟩
        exact ⟨.inr ((b.line hl).mpr state), b.lane.trans hl⟩
      · rintro ⟨state | state, hl⟩
        · exact absurd ⟨state, hl⟩ b.idle
        · exact ⟨(b.line (b.lane.symm.trans hl)).mp state, b.lane.symm.trans hl⟩
  · rw [sched, Option.some.injEq]
    by_cases hd : d = c
    · subst hd; simp [own, lane]
    · exact iff_of_false (Ne.symm hd) (back d hd).idle
  · rw [sched, setQueue_get]
    by_cases hd : d = c
    · subst hd
      refine iff_of_false (fun mem => ?_) (by simp [own])
      split at mem
      · rw [queue] at mem
        exact distinct.1 mem
      · next hk => exact hk (cls.symm.trans ((h.queued d j).mp mem).2.2)
    · have same : d ∈ (if k = j then (s.lane l).sched.ready[k].tail else (s.lane l).sched.ready[j]) ↔
          d ∈ (s.lane l).sched.ready[j] := by
        by_cases hk : k = j
        · subst hk; simp [queue, hd]
        · simp [hk]
      have b := back d hd
      rw [same, h.queued, b.queued, b.lane, b.cls]
  · rw [sched, setQueue_get]
    split
    · rw [queue]
      exact distinct.2
    · exact h.queues j

/-- The job at the resume point takes the empty slot and keeps its link: the line stays (R43). -/
theorem LaneOrder.resume_takes {r : CtxId} (h : LaneOrder s l line) (idle : (s.lane l).sched.running = none)
    (resume : (s.lane l).sched.resume = some r)
    (sched : (t.lane l).sched = { (s.lane l).sched with running := some r, resume := none })
    (own : t.ctx r = { s.ctx r with state := .running }) (others : ∀ d, d ≠ r → t.ctx d = s.ctx d) : LaneOrder t l line := by
  have preempted := h.selectable.resume r resume
  have none_runs : ∀ d, ¬ ((s.ctx d).state = .running ∧ (s.ctx d).lane = l) := fun d runs => by
    have slot := (h.running d).mpr runs
    simp [idle] at slot
  have linked := h.linked
  rw [idle, Option.none_or, resume] at linked
  have inLine : r ∈ line := List.mem_of_head? (linked_head linked)
  have lane := ((h.members r).mp inLine).2
  have seat : ∀ d, (t.ctx d).lane = (s.ctx d).lane ∧ (t.ctx d).cls = (s.ctx d).cls ∧ (t.ctx d).link = (s.ctx d).link := by
    intro d
    by_cases hd : d = r
    · rw [hd, own]
      exact ⟨rfl, rfl, rfl⟩
    · rw [others d hd]
      exact ⟨rfl, rfl, rfl⟩
  refine { linked := ?_, nodup := h.nodup, short := h.short, members := fun d => ?_, running := fun d => ?_,
           exclusive := fun _ => by rw [sched], queued := fun d k => ?_, queues := ?_, falling := ?_, behind := ?_ }
  · rw [sched, Option.some_or]
    exact linked_congr (fun d _ => (seat d).2.2) linked
  · rw [h.members]
    by_cases hd : d = r
    · subst hd; simp [own, preempted]
    · rw [others d hd]
  · rw [sched, Option.some.injEq]
    by_cases hd : d = r
    · subst hd; simp [own, lane]
    · rw [others d hd]
      exact ⟨fun e => absurd e.symm hd, fun runs => absurd runs (none_runs d)⟩
  · rw [sched, h.queued]
    by_cases hd : d = r
    · subst hd; simp [own, preempted]
    · rw [others d hd]
  · rw [sched]
    exact h.queues
  · exact h.falling.imp fun {a b} lt => by rwa [(seat a).2.1, (seat b).2.1]
  · rw [sched]
    exact h.short

/-! ### Selection and boundaries -/

theorem ctx_takeResume_same (r : CtxId) : (s.takeResume l r).ctx r = { s.ctx r with state := .running } := by
  simp only [State.takeResume, ctx_modCtx_same, ctx_modSched]

theorem ctx_takeResume_ne {r d : CtxId} (h : r ≠ d) : (s.takeResume l r).ctx d = s.ctx d := by
  simp only [State.takeResume, ctx_modCtx_ne _ _ h, ctx_modSched]

theorem lane_takeResume_same (r : CtxId) : (s.takeResume l r).lane l =
    { s.lane l with sched := { (s.lane l).sched with running := some r, resume := none } } := by
  simp only [State.takeResume, lane_modCtx, lane_modSched_same]

theorem LaneOrder.select (h : LaneOrder s l line) : ∃ line', LaneOrder (s.select l) l line' := by
  rcases select_cases s l with ⟨eq, -⟩ | ⟨-, idle, ⟨k, c, best, eq, higher⟩ | ⟨r, resume, eq, -⟩⟩ <;> rw [eq]
  · exact ⟨line, h⟩
  · refine ⟨c :: line, h.head_takes best ?_ (by rw [lane_takeHead_same]) ?_ fun d hd => ?_⟩
    · rw [idle, Option.none_or]
      exact higher
    · rw [ctx_takeHead_same, idle, Option.none_or]
    · rw [ctx_takeHead_ne _ _ _ hd.symm, idle, if_neg (by simp)]
  · exact ⟨line, h.resume_takes idle resume (by rw [lane_takeResume_same]) (ctx_takeResume_same r) fun d hd =>
      ctx_takeResume_ne hd.symm⟩

/-- After selection no candidate waits beside an empty slot (R42). -/
theorem laneIdle_select (s : State) (l : LaneId) : LaneIdle (s.select l) l := by
  rcases select_cases s l with ⟨eq, busy⟩ | ⟨-, -, ⟨k, c, -, eq, -⟩ | ⟨r, -, eq, -⟩⟩ <;> rw [eq] <;> intro open_ empty
  · simpa [open_, empty, and_comm] using busy
  · simp [lane_takeHead_same] at empty
  · simp [lane_takeResume_same] at empty

/-- A lane with a running job is not idle. -/
theorem laneIdle_of_running {c : CtxId} (h : (s.lane l).sched.running = some c) : LaneIdle s l := fun _ idle => by
  rw [h] at idle
  cases idle

/-- When a job that does not run leaves a lane, no candidate comes to wait beside an empty slot. -/
theorem LaneOrder.idle_leave {c : CtxId} (h : LaneOrder s l line) (idle : LaneIdle s l) (w : Withdrawn s t l c line)
    (other : (s.ctx c).state ≠ .running) (sched : (u.lane l).sched = (t.lane l).sched)
    (ctl : (u.lane l).ctl.state = (s.lane l).ctl.state) : LaneIdle u l := by
  intro open_ empty
  rw [ctl] at open_
  rw [sched, w.running, h.running_ne other] at empty
  obtain ⟨resume, ready⟩ := idle open_ empty
  have linked := h.linked
  have linked' := w.linked
  rw [empty, resume, Option.none_or] at linked
  have nil : line = [] := List.head?_eq_none_iff.mp (linked_head linked)
  rw [w.running, h.running_ne other, empty, Option.none_or, nil, List.filter_nil] at linked'
  rw [sched]
  refine ⟨linked', bestReady_none.mpr fun k => ?_⟩
  rw [w.ready, bestReady_none.mp ready k]
  rfl

theorem lane_preempt_same (c h : CtxId) (k : ClassId) : (s.preempt l c k h).lane l = { s.lane l with sched :=
    { (s.lane l).sched with
      ready := setQueue (s.lane l).sched.ready k (s.lane l).sched.ready[k].tail, running := some h } } := by
  simp only [State.preempt, lane_modCtx, lane_modSched_same]

/-- Preemption puts the head in front of the line (R50). -/
theorem LaneOrder.preempt {c d : CtxId} {k : ClassId} (h : LaneOrder s l line) (runs : (s.lane l).sched.running = some c)
    (best : bestReady (s.lane l).sched.ready = some (k, d)) (higher : (s.ctx d).cls < (s.ctx c).cls) :
    LaneOrder (s.preempt l c k d) l (d :: line) := by
  have queued := h.selectable.queued k d (bestReady_mem best)
  have state := ((h.running c).mp runs).1
  have ne : c ≠ d := by rintro rfl; simp [queued] at state
  have resume := h.exclusive (by rw [runs]; rfl)
  refine h.head_takes best (fun p hp => ?_) ?_ ?_ fun e he => ?_
  · rw [runs, Option.some_or] at hp
    cases hp
    exact higher
  · rw [lane_preempt_same]
    exact congrArg (Scheduler.mk _ _) resume
  · rw [runs, Option.some_or]
    simp only [State.preempt, ctx_modCtx_same, ctx_modSched, ctx_modCtx_ne _ _ ne]
  · simp only [runs, Option.some.injEq, State.preempt, ctx_modCtx_ne _ _ he.symm, ctx_modSched, ctx_modCtx]
    split
    · next hc => rw [hc]
    · rfl

end

end Sys2Proof.Machine
end

-- ==== Proofs: Acts of a lane ====
section
/-! PROOFS. Acts of a lane: what an event of one lane leaves of the others, and the laws of the schedulers up to the
selection that ends the event (R39 to R57). -/

namespace Sys2Proof.Machine

/-! ### Changes that no scheduler sees -/

/-- No scheduler changes, no lane opens, and every job keeps its seat or had and has none. -/
structure Rests (s t : State) : Prop where
  sched : ∀ k, (t.lane k).sched = (s.lane k).sched
  closed : ∀ k, selects (t.lane k).ctl.state = true → selects (s.lane k).ctl.state = true
  jobs : ∀ c, (JobLaw (s.ctx c) → JobLaw (t.ctx c)) ∧ SeatKept Context.Placed (s.ctx c) (t.ctx c)

/-- The CANCELs of a context on a lane (R75). -/
def cancelsOf (x : Transmitter) (c : CtxId) : Nat :=
  (x.cancels.filter fun e => e.ctx == c).length + (x.inFlight.filter fun e => e.ctx == c && e.what == .cancel).length

section
variable {s t u : State} {l : LaneId} {line : List CtxId}

theorem cancelLaw_congr (count : ∀ k c, cancelsOf (t.lane k).tx c = cancelsOf (s.lane k).tx c)
    (aborting : ∀ c k, (t.ctx c).state = .aborting ∧ (t.ctx c).lane = k ↔ (s.ctx c).state = .aborting ∧ (s.ctx c).lane = k)
    (h : CancelLaw s) : CancelLaw t := by
  intro c k
  have same : cancelsOf (t.lane k).tx c = if (s.ctx c).state = .aborting ∧ (s.ctx c).lane = k then 1 else 0 :=
    (count k c).trans (h c k)
  simp only [← aborting] at same
  exact same

theorem LaneOrder.rests (h : LaneOrder s l line) (rests : Rests s t) : LaneOrder t l line :=
  h.of_seats (rests.sched l) fun c => (rests.jobs c).2.mono fun _ seen => seen.1

theorem LaneIdle.rests (h : LaneIdle s l) (rests : Rests s t) : LaneIdle t l := by
  intro open_ empty
  rw [rests.sched] at empty ⊢
  exact h (rests.closed l open_) empty

theorem Ordered.rests (h : Ordered s) (rests : Rests s t) : Ordered t := by
  refine ⟨fun l => ?_, fun c => (rests.jobs c).1 (h.jobs c)⟩
  obtain ⟨line, order⟩ := h.lanes l
  exact ⟨line, order.rests rests⟩

theorem Scheduled.rests (h : Scheduled s) (rests : Rests s t) (cancel : CancelLaw t) : Scheduled t :=
  ⟨h.toOrdered.rests rests, fun l => (h.idle l).rests rests, cancel⟩

/-! ### What an event of one lane leaves of the others -/

/-- A job with a place in another lane than `l`. -/
def Context.Elsewhere (l : LaneId) (x : Context) : Prop := x.Placed ∧ x.lane ≠ l

/-- What an event of lane `l` does to one job: no seat in another lane changes. -/
structure JobActs (l : LaneId) (x y : Context) : Prop where
  law : JobLaw x → JobLaw y
  seat : SeatKept (Context.Elsewhere l) x y

/-- What an event of lane `l` does to the schedulers: the other lanes stay. -/
structure Acts (l : LaneId) (s t : State) : Prop where
  sched : ∀ k, k ≠ l → (t.lane k).sched = (s.lane k).sched
  ctl : ∀ k, k ≠ l → (t.lane k).ctl.state = (s.lane k).ctl.state
  jobs : ∀ c, JobActs l (s.ctx c) (t.ctx c)

/-- An event of lane `l` that keeps the one CANCEL of every ABORTING job as well (R75). -/
structure Shifts (l : LaneId) (s t : State) : Prop extends Acts l s t where
  cancel : CancelLaw s → CancelLaw t

theorem placed_of_seat_eq {x y : Context} (h : y.seat = x.seat) (placed : y.Placed) : x.Placed := by
  simpa only [Context.Placed, (seat_eq h).1] using placed

theorem Rests.refl (s : State) : Rests s s := ⟨fun _ => rfl, fun _ => id, fun _ => ⟨id, .inl rfl⟩⟩

theorem Rests.trans (h : Rests s t) (h' : Rests t u) : Rests s u :=
  ⟨fun k => (h'.sched k).trans (h.sched k), fun k => h.closed k ∘ h'.closed k,
    fun c => ⟨(h'.jobs c).1 ∘ (h.jobs c).1, (h.jobs c).2.trans placed_of_seat_eq (h'.jobs c).2⟩⟩

theorem JobActs.refl (l : LaneId) (x : Context) : JobActs l x x := ⟨id, .inl rfl⟩

theorem JobActs.trans {x y z : Context} (h : JobActs l x y) (h' : JobActs l y z) : JobActs l x z :=
  ⟨h'.law ∘ h.law, h.seat.trans (fun eq seen => ⟨placed_of_seat_eq eq seen.1, (seat_eq eq).2.1 ▸ seen.2⟩) h'.seat⟩

/-- A job of the lane stays in it. -/
theorem JobActs.own {x y : Context} (before : x.lane = l) (after : y.lane = l) (law : JobLaw x → JobLaw y) : JobActs l x y :=
  ⟨law, .inr ⟨fun seen => seen.2 before, fun seen => seen.2 after⟩⟩

theorem Acts.refl (l : LaneId) (s : State) : Acts l s s := ⟨fun _ _ => rfl, fun _ _ => rfl, fun _ => .refl ..⟩

theorem Acts.trans (h : Acts l s t) (h' : Acts l t u) : Acts l s u :=
  ⟨fun k hk => (h'.sched k hk).trans (h.sched k hk), fun k hk => (h'.ctl k hk).trans (h.ctl k hk),
    fun c => (h.jobs c).trans (h'.jobs c)⟩

theorem Acts.of_rests (rests : Rests s t) (ctl : ∀ k, k ≠ l → (t.lane k).ctl.state = (s.lane k).ctl.state) : Acts l s t :=
  ⟨fun k _ => rests.sched k, ctl, fun c => ⟨(rests.jobs c).1, (rests.jobs c).2.mono fun _ seen => seen.1⟩⟩

theorem Shifts.refl (l : LaneId) (s : State) : Shifts l s s := ⟨.refl l s, id⟩

theorem Shifts.trans (h : Shifts l s t) (h' : Shifts l t u) : Shifts l s u :=
  ⟨h.toActs.trans h'.toActs, h'.cancel ∘ h.cancel⟩

theorem Shifts.modSched (s : State) (l : LaneId) (f : Scheduler → Scheduler) : Shifts l s (s.modSched l f) := by
  refine ⟨⟨fun k hk => ?_, fun k hk => ?_, fun c => .refl ..⟩, cancelLaw_congr (fun k c => ?_) fun c k => Iff.rfl⟩
  · rw [lane_modSched_ne _ _ hk.symm]
  · rw [lane_modSched_ne _ _ hk.symm]
  · by_cases hk : l = k
    · subst hk; rw [lane_modSched_same]
    · rw [lane_modSched_ne _ _ hk]

/-- A job changes that neither was nor becomes ABORTING. -/
theorem Shifts.modCtx {c : CtxId} {f : Context → Context} (acts : JobActs l (s.ctx c) (f (s.ctx c)))
    (before : (s.ctx c).state ≠ .aborting) (after : (f (s.ctx c)).state ≠ .aborting) : Shifts l s (s.modCtx c f) := by
  refine ⟨⟨fun _ _ => rfl, fun _ _ => rfl, fun d => ?_⟩, cancelLaw_congr (fun _ _ => rfl) fun d k => ?_⟩
  · rw [ctx_modCtx]
    split
    · next hd => exact hd ▸ acts
    · exact .refl ..
  · rw [ctx_modCtx]
    split
    · next hd => subst hd; simp [before, after]
    · exact Iff.rfl

/-- The laws of the schedulers but for the selection due on lane `l`. -/
structure Settling (l : LaneId) (s : State) : Prop extends Ordered s where
  cancel : CancelLaw s
  idle : ∀ k, k ≠ l → LaneIdle s k

theorem Scheduled.settling (h : Scheduled s) (l : LaneId) : Settling l s := ⟨h.toOrdered, h.cancel, fun k _ => h.idle k⟩

theorem Settling.scheduled (h : Settling l s) (idle : LaneIdle s l) : Scheduled s := by
  refine ⟨h.toOrdered, fun k => ?_, h.cancel⟩
  by_cases hk : k = l
  · exact hk ▸ idle
  · exact h.idle k hk

theorem Ordered.acts (h : Ordered s) (acts : Acts l s t) (order : LaneOrder t l line) : Ordered t := by
  refine ⟨fun k => ?_, fun c => (acts.jobs c).law (h.jobs c)⟩
  by_cases hk : k = l
  · exact hk ▸ ⟨line, order⟩
  · obtain ⟨line', order'⟩ := h.lanes k
    exact ⟨line', order'.of_seats (acts.sched k hk) fun c => (acts.jobs c).seat.mono fun x seen => ⟨seen.1, seen.2 ▸ hk⟩⟩

theorem Settling.acts (h : Settling l s) (acts : Acts l s t) (order : LaneOrder t l line) (cancel : CancelLaw t) :
    Settling l t := by
  refine ⟨h.toOrdered.acts acts order, cancel, fun k hk => ?_⟩
  have idle := h.idle k hk
  unfold LaneIdle at idle ⊢
  rwa [acts.sched k hk, acts.ctl k hk]

theorem Settling.shifts (h : Settling l s) (shifts : Shifts l s t) (order : LaneOrder t l line) : Settling l t :=
  h.acts shifts.toActs order (shifts.cancel h.cancel)

/-! ### Calm changes -/

/-- No scheduler changes, only lane `l` may change its state and does not open, every job keeps its seat, and every context
keeps its CANCELs. -/
structure Calm (l : LaneId) (s t : State) : Prop where
  sched : ∀ k, (t.lane k).sched = (s.lane k).sched
  ctl : ∀ k, k ≠ l → (t.lane k).ctl.state = (s.lane k).ctl.state
  closed : selects (t.lane l).ctl.state = true → selects (s.lane l).ctl.state = true
  count : ∀ k c, cancelsOf (t.lane k).tx c = cancelsOf (s.lane k).tx c
  seat : ∀ c, (t.ctx c).seat = (s.ctx c).seat
  law : ∀ c, JobLaw (s.ctx c) → JobLaw (t.ctx c)

theorem Calm.rests (h : Calm l s t) : Rests s t := by
  refine ⟨h.sched, fun k => ?_, fun c => ⟨h.law c, .inl (h.seat c)⟩⟩
  by_cases hk : k = l
  · exact hk ▸ h.closed
  · rw [h.ctl k hk]
    exact id

theorem Calm.cancel (h : Calm l s t) : CancelLaw s → CancelLaw t :=
  cancelLaw_congr h.count fun c k => by rw [(seat_eq (h.seat c)).1, (seat_eq (h.seat c)).2.1]

theorem Scheduled.calm (h : Scheduled s) (calm : Calm l s t) : Scheduled t := h.rests calm.rests (calm.cancel h.cancel)

theorem Settling.calm (h : Settling l s) (calm : Calm l s t) : Settling l t := by
  obtain ⟨line, order⟩ := h.lanes l
  exact h.shifts ⟨.of_rests calm.rests calm.ctl, calm.cancel⟩ (order.rests calm.rests)

theorem Calm.refl (l : LaneId) (s : State) : Calm l s s :=
  ⟨fun _ => rfl, fun _ _ => rfl, id, fun _ _ => rfl, fun _ => rfl, fun _ => id⟩

theorem Calm.trans (h : Calm l s t) (h' : Calm l t u) : Calm l s u :=
  ⟨fun k => (h'.sched k).trans (h.sched k), fun k hk => (h'.ctl k hk).trans (h.ctl k hk), h.closed ∘ h'.closed,
    fun k c => (h'.count k c).trans (h.count k c), fun c => (h'.seat c).trans (h.seat c), fun c => h'.law c ∘ h.law c⟩

theorem Calm.of_alike (alike : Alike s t) : Calm l s t := by
  have ctx := ctx_congr alike.ctxs
  refine ⟨alike.sched, fun k _ => by rw [alike.ctl], ?_, fun k c => by rw [alike.tx], fun c => by rw [ctx], fun c => ?_⟩
  · rw [alike.ctl]
    exact id
  · rw [ctx]
    exact id

theorem Calm.post (l : LaneId) (s : State) (b : NoticeBody) : Calm l s (s.post b) :=
  .of_alike (.of_fields rfl rfl rfl rfl rfl)

theorem Calm.modLane (s : State) (l : LaneId) {f : Lane → Lane} (sched : (f (s.lane l)).sched = (s.lane l).sched)
    (closed : selects (f (s.lane l)).ctl.state = true → selects (s.lane l).ctl.state = true)
    (count : ∀ c, cancelsOf (f (s.lane l)).tx c = cancelsOf (s.lane l).tx c) : Calm l s (s.modLane l f) := by
  refine ⟨fun k => ?_, fun k hk => ?_, ?_, fun k c => ?_, fun _ => rfl, fun _ => id⟩
  · by_cases hk : l = k
    · subst hk; rw [lane_modLane_same, sched]
    · rw [lane_modLane_ne _ _ hk]
  · rw [lane_modLane_ne _ _ hk.symm]
  · rw [lane_modLane_same]
    exact closed
  · by_cases hk : l = k
    · subst hk; rw [lane_modLane_same, count]
    · rw [lane_modLane_ne _ _ hk]

theorem Calm.modTx (s : State) (l : LaneId) {f : Transmitter → Transmitter}
    (count : ∀ c, cancelsOf (f (s.lane l).tx) c = cancelsOf (s.lane l).tx c) : Calm l s (s.modTx l f) :=
  modLane s l rfl id count

theorem Calm.modCtl (s : State) (l : LaneId) {f : Controller → Controller}
    (closed : selects (f (s.lane l).ctl).state = true → selects (s.lane l).ctl.state = true) : Calm l s (s.modCtl l f) :=
  modLane s l rfl closed fun _ => rfl

theorem Calm.modPair (s : State) (l : LaneId) (f : TxPair → TxPair) : Calm l s (s.modPair l f) :=
  .of_alike (.modPair s l f)

theorem Calm.modRcv (s : State) (l : LaneId) (f : Receiver → Receiver) : Calm l s (s.modRcv l f) :=
  .of_alike (.modRcv s l f)

theorem Calm.modCtx (l : LaneId) {c : CtxId} {f : Context → Context} (seat : (f (s.ctx c)).seat = (s.ctx c).seat)
    (law : JobLaw (s.ctx c) → JobLaw (f (s.ctx c))) : Calm l s (s.modCtx c f) := by
  refine ⟨fun _ => rfl, fun _ _ => rfl, id, fun _ _ => rfl, fun d => ?_, fun d => ?_⟩ <;> rw [ctx_modCtx] <;> split
  · next hd => exact hd ▸ seat
  · rfl
  · next hd => exact hd ▸ law
  · exact id

/-! ### Selection (R42 to R44) -/

theorem LaneLine.queued_own {c : CtxId} {k : ClassId} (h : LaneLine s l line)
    (best : bestReady (s.lane l).sched.ready = some (k, c)) : (s.ctx c).state = .queued ∧ (s.ctx c).lane = l :=
  ((h.queued c k).mp (bestReady_mem best)).imp_right And.left

theorem LaneLine.resume_own {r : CtxId} (h : LaneLine s l line) (idle : (s.lane l).sched.running = none)
    (resume : (s.lane l).sched.resume = some r) : (s.ctx r).state = .preempted ∧ (s.ctx r).lane = l := by
  have head := linked_head h.linked
  rw [idle, Option.none_or, resume] at head
  exact ⟨h.selectable.resume r resume, ((h.members r).mp (List.mem_of_head? head)).2⟩

/-- The law of a running job asks nothing. -/
theorem jobLaw_running {x : Context} (h : x.state = .running) : JobLaw x :=
  ⟨fun hr => absurd h hr, fun hr => absurd h hr, fun hs => by simp [h] at hs⟩

theorem Shifts.select (h : LaneLine s l line) : Shifts l s (s.select l) := by
  rcases select_cases s l with ⟨eq, -⟩ | ⟨-, idle, ⟨k, c, best, eq, -⟩ | ⟨r, resume, eq, -⟩⟩ <;> rw [eq]
  · exact refl l s
  · obtain ⟨queued, lane⟩ := h.queued_own best
    unfold State.takeHead
    exact (modSched s l _).trans (modCtx (.own lane lane fun _ => jobLaw_running rfl)
      (by rw [ctx_modSched, queued]; simp) (by simp))
  · obtain ⟨preempted, lane⟩ := h.resume_own idle resume
    unfold State.takeResume
    exact (modSched s l _).trans (modCtx (.own lane lane fun _ => jobLaw_running rfl)
      (by rw [ctx_modSched, preempted]; simp) (by simp))

/-- The selection due ends the event (R42). -/
theorem Settling.select (h : Settling l s) : Scheduled (s.select l) := by
  obtain ⟨line, order⟩ := h.lanes l
  obtain ⟨line', order'⟩ := order.select
  exact (h.shifts (.select order.toLaneLine) order').scheduled (laneIdle_select s l)

/-! ### The running job leaves its slot (R52) -/

/-- The job's record after a change of the slot and of the record. -/
theorem ctx_vacated {c : CtxId} {g : Context → Context} {f : Scheduler → Scheduler} :
    ((s.modSched l f).modCtx c g).ctx c = g (s.ctx c) := by rw [ctx_modCtx_same, ctx_modSched]

/-- The slot falls empty, the resume point takes the job's link, and the record has no place any more (R52). -/
theorem Settling.leaves {c : CtxId} (h : Settling l s) (runs : (s.lane l).sched.running = some c) {g : Context → Context}
    (law : JobLaw (g (s.ctx c))) (unplaced : ¬ (g (s.ctx c)).Placed) (lane : (g (s.ctx c)).lane = (s.ctx c).lane)
    (other : (g (s.ctx c)).state ≠ .aborting) :
    Settling l ((s.modSched l fun d => { d with running := none, resume := (s.ctx c).link }).modCtx c g) := by
  obtain ⟨line, order⟩ := h.lanes l
  obtain ⟨state, own⟩ := (order.running c).mp runs
  refine h.shifts ((Shifts.modSched s l _).trans (.modCtx (.own own (lane.trans own) fun _ => law) ?_ other))
    (order.leave (withdrawn_vacate order.toLaneLine state own) ?_ (by rwa [ctx_vacated]) fun d hd => ?_)
  · rw [ctx_modSched, state]
    simp
  · rw [lane_vacate_same, lane_modCtx, lane_modSched_same]
  · rw [ctx_vacate_ne hd.symm, ctx_modCtx_ne _ _ hd.symm, ctx_modSched]

/-- A change of the running job and its leaving the slot, as one (R52). -/
theorem vacate_modCtx (s : State) (l : LaneId) (c : CtxId) (f : Context → Context) : (s.modCtx c f).vacate l c =
    (s.modSched l fun d => { d with running := none, resume := (f (s.ctx c)).link }).modCtx c
      fun y => { f y with link := none, suspendPending := false } := by
  unfold State.vacate
  rw [ctx_modCtx_same]
  exact modCtx_modCtx (s.modSched l fun d => { d with running := none, resume := (f (s.ctx c)).link }) c f _

/-- Suspension at a boundary, as one change of the job (R51). -/
theorem suspendAtBoundary_eq (s : State) (l : LaneId) (c : CtxId) : s.suspendAtBoundary l c =
    State.select ((((s.modSched l fun d => { d with running := none, resume := (s.ctx c).link }).modCtx c
      fun y => { y with state := .suspended, link := none, suspendPending := false })).post
        (.jobSuspended (s.ctx c).tag (s.ctx c).lane (s.ctx c).sent)) l := by
  unfold State.suspendAtBoundary State.vacate
  simp only [modCtx_modCtx, ctx_modCtx_same, ctx_modSched]

theorem Shifts.preempt {c d : CtxId} {k : ClassId} (h : LaneLine s l line) (runs : (s.lane l).sched.running = some c)
    (pending : (s.ctx c).suspendPending = false) (best : bestReady (s.lane l).sched.ready = some (k, d)) :
    Shifts l s (s.preempt l c k d) := by
  obtain ⟨state, own⟩ := (h.running c).mp runs
  obtain ⟨queued, own'⟩ := h.queued_own best
  have ne : c ≠ d := by rintro rfl; simp [queued] at state
  unfold State.preempt
  refine Shifts.trans (.modCtx (.own own own fun law => ?_) (by simp [state]) (by simp))
    ((modSched _ l _).trans (modCtx ?_ ?_ (by simp)))
  · exact ⟨fun _ hp => absurd rfl hp, fun _ => pending, fun hs => by simp at hs⟩
  · rw [ctx_modSched, ctx_modCtx_ne _ _ ne]
    exact .own own' own' fun _ => jobLaw_running rfl
  · rw [ctx_modSched, ctx_modCtx_ne _ _ ne, queued]
    simp

/-- A boundary leaves a job running, or ends in selection (R49 to R51). -/
theorem Settling.evalBoundary {c : CtxId} (h : Settling l s) (runs : (s.lane l).sched.running = some c) :
    Scheduled (s.evalBoundary l) := by
  obtain ⟨line, order⟩ := h.lanes l
  rcases evalBoundary_cases s l with eq | ⟨c', runs', -, ⟨-, eq⟩ | ⟨pending, k, d, best, higher, eq⟩⟩ <;> rw [eq]
  · exact h.scheduled (laneIdle_of_running runs)
  · rw [suspendAtBoundary_eq]
    exact ((h.leaves runs' ⟨fun _ _ => rfl, fun _ => rfl, by simp⟩ (by simp [Context.Placed]) rfl (by simp)).calm
      (.post ..)).select
  · refine (h.shifts (.preempt order.toLaneLine runs' pending best) (order.preempt runs' best higher)).scheduled
      (laneIdle_of_running (c := d) ?_)
    rw [lane_preempt_same]

end

end Sys2Proof.Machine
end

-- ==== Proofs: Withdrawals ====
section
/-! PROOFS. Withdrawals: the requests that withdraw a job keep the laws of the schedulers (R55, R56, R63, R73 to R75). -/

namespace Sys2Proof.Machine

section
variable {s t u : State} {l : LaneId} {line : List CtxId} {c : CtxId}

/-! ### Withdrawal (R55, R56) -/

/-- A link names a job of the same lane (R40). -/
theorem Ordered.link_lane (h : Ordered s) {d : CtxId} (link : (s.ctx d).link = some c) :
    (s.ctx c).lane = (s.ctx d).lane := by
  have placed : (s.ctx d).state = .running ∨ (s.ctx d).state = .preempted := by
    by_contra hn
    rw [not_or] at hn
    rw [(h.jobs d).link hn.1 hn.2] at link
    cases link
  obtain ⟨line, order⟩ := h.lanes (s.ctx d).lane
  exact (order.link_preempted ((order.members d).mpr ⟨placed, rfl⟩) link).2

theorem ctx_splice_same (s : State) (l : LaneId) (c : CtxId) : (s.splice l c).ctx c = { s.ctx c with link := none } := by
  unfold State.splice
  rw [ctx_modCtx_same]
  split
  · rfl
  · split
    · rw [ctx_modCtx]
      split
      · next same => rw [same]
      · rfl
    · rfl

/-- A job withdrawn has neither a link nor a pending suspension (R39, R52, R55). -/
theorem ctx_withdraw_same (law : JobLaw (s.ctx c)) :
    (s.withdraw c).ctx c = { s.ctx c with link := none, suspendPending := false } := by
  have bare : ∀ {x : Context}, x.link = none → x.suspendPending = false →
      x = { x with link := none, suspendPending := false } := fun {x} hl hp => by cases x; simp_all
  unfold State.withdraw
  cases hs : (s.ctx c).state with
  | running => exact ctx_vacate_same
  | preempted =>
    have pending := law.pending (by simp [hs])
    rw [ctx_splice_same, ← pending]
  | queued | suspended | draining | aborting | free =>
    exact bare (law.link (by simp [hs]) (by simp [hs])) (law.pending (by simp [hs]))

theorem Shifts.withdraw (h : Ordered s) (c : CtxId) : Shifts (s.ctx c).lane s (s.withdraw c) := by
  obtain ⟨line, order⟩ := h.lanes (s.ctx c).lane
  have w := withdrawn_withdraw order.toLaneLine rfl
  have own := ctx_withdraw_same (h.jobs c)
  have lane : ∀ k, ((s.withdraw c).lane k).tx = (s.lane k).tx := fun k => by
    by_cases hk : k = (s.ctx c).lane
    · rw [hk, w.lane]
    · rw [w.lanes k hk]
  refine ⟨⟨fun k hk => by rw [w.lanes k hk], fun k hk => by rw [w.lanes k hk], fun d => ?_⟩,
    cancelLaw_congr (fun k d => by rw [lane]) fun d k => ?_⟩
  · by_cases hd : d = c
    · subst hd
      rw [own]
      exact .own rfl rfl fun law => ⟨fun _ _ => rfl, fun _ => rfl, law.started⟩
    · by_cases link : (s.ctx d).link = some c
      · rw [w.others d hd]
        have same := h.link_lane link
        refine .own same.symm same.symm fun law => ⟨fun hr hp => ?_, law.pending, law.started⟩
        simp [law.link hr hp] at link
      · rw [w.linkKept d hd link]
        exact .refl ..
  · by_cases hd : d = c
    · subst hd
      rw [own]
    · rw [w.others d hd]

/-- The job withdrawn changes its record to one without a place, and the selection that a running job leaves due follows. -/
theorem Scheduled.withdraws (h : Scheduled s) (acts : Acts (s.ctx c).lane (s.withdraw c) u)
    (sched : (u.lane (s.ctx c).lane).sched = ((s.withdraw c).lane (s.ctx c).lane).sched)
    (ctl : (u.lane (s.ctx c).lane).ctl.state = (s.lane (s.ctx c).lane).ctl.state) (own : ¬ (u.ctx c).Placed)
    (others : ∀ d, d ≠ c → u.ctx d = (s.withdraw c).ctx d) (cancel : CancelLaw u) :
    Scheduled (u.selectIf (s.ctx c).state (s.ctx c).lane) := by
  obtain ⟨line, order⟩ := h.lanes (s.ctx c).lane
  have w := withdrawn_withdraw order.toLaneLine rfl
  have settling := (h.settling _).acts ((Shifts.withdraw h.toOrdered c).toActs.trans acts)
    (order.leave w sched own others) cancel
  unfold State.selectIf
  split
  · exact settling.select
  · next other => exact settling.scheduled (order.idle_leave (h.idle _) w other sched ctl)

/-- A withdrawal after which the job's record alone changes. -/
theorem Scheduled.withdraws_modCtx (h : Scheduled s) {f : Context → Context}
    (after : (f ((s.withdraw c).ctx c)).state ≠ .aborting)
    (unplaced : ¬ (f ((s.withdraw c).ctx c)).Placed) (lane : (f ((s.withdraw c).ctx c)).lane = (s.ctx c).lane)
    (law : JobLaw (f ((s.withdraw c).ctx c))) (before : (s.ctx c).state ≠ .aborting) :
    Scheduled (((s.withdraw c).modCtx c f).selectIf (s.ctx c).state (s.ctx c).lane) := by
  have own := ctx_withdraw_same (h.jobs c)
  have shifts : Shifts (s.ctx c).lane (s.withdraw c) ((s.withdraw c).modCtx c f) :=
    .modCtx (.own (by rw [own]) lane fun _ => law) (by rw [own]; exact before) after
  have w := (Shifts.withdraw h.toOrdered c).cancel h.cancel
  refine h.withdraws shifts.toActs rfl ?_ (by rwa [ctx_modCtx_same]) (fun d hd => ctx_modCtx_ne _ _ hd.symm) (shifts.cancel w)
  obtain ⟨line, order⟩ := h.lanes (s.ctx c).lane
  rw [lane_modCtx, (withdrawn_withdraw order.toLaneLine rfl).lane]

/-! ### Requests (chapters 1 and 4) -/

theorem Scheduled.suspend (h : Scheduled s) (waits : (s.ctx c).state = .queued ∨ (s.ctx c).state = .preempted) :
    Scheduled ((s.withdraw c).modCtx c fun x => { x with state := .suspended }) := by
  have own := ctx_withdraw_same (h.jobs c)
  have suspended := h.withdraws_modCtx (c := c) (f := fun x => { x with state := .suspended }) (by simp)
    (by simp [Context.Placed]) (by rw [own]) (by rw [own]; exact ⟨fun _ _ => rfl, fun _ => rfl, by simp⟩)
    (by rcases waits with hs | hs <;> simp [hs])
  rwa [State.selectIf, if_neg (by rcases waits with hs | hs <;> simp [hs])] at suspended

/-- A cleared record keeps the law of its job. -/
theorem jobLaw_cleared : JobLaw {} := ⟨fun _ _ => rfl, fun _ => rfl, fun hs => by simp at hs⟩

theorem Acts.freeCtx (own : (s.ctx c).lane = l ∨ ¬ (s.ctx c).Placed) (reason : EndReason) :
    Acts l s (s.freeCtx c reason) := by
  refine ⟨fun k _ => by rw [lane_freeCtx], fun k _ => by rw [lane_freeCtx], fun d => ?_⟩
  by_cases hd : c = d
  · subst hd
    rw [ctx_freeCtx_same]
    refine ⟨fun _ => jobLaw_cleared, .inr ⟨fun seen => ?_, fun seen => by simp [Context.Elsewhere, Context.Placed] at seen⟩⟩
    exact own.elim seen.2 fun unplaced => unplaced seen.1
  · rw [ctx_freeCtx_ne _ _ hd]
    exact .refl ..

theorem cancelLaw_freeCtx (h : CancelLaw s) (other : (s.ctx c).state ≠ .aborting) (reason : EndReason) :
    CancelLaw (s.freeCtx c reason) := by
  refine cancelLaw_congr (fun k d => by rw [lane_freeCtx]) (fun d k => ?_) h
  by_cases hd : c = d
  · subst hd; simp [other]
  · rw [ctx_freeCtx_ne _ _ hd]

theorem Scheduled.abortUnstarted (h : Scheduled s) (going : (s.ctx c).state ≠ .aborting) :
    Scheduled (s.abortUnstarted c) := by
  have own := ctx_withdraw_same (h.jobs c)
  obtain ⟨line, order⟩ := h.lanes (s.ctx c).lane
  have w := withdrawn_withdraw order.toLaneLine rfl
  unfold State.abortUnstarted
  refine h.withdraws (.freeCtx (.inl (by rw [own])) _) (by rw [lane_freeCtx]) (by rw [lane_freeCtx, w.lane])
    (by simp [Context.Placed]) (fun d hd => ctx_freeCtx_ne _ _ hd.symm) ?_
  exact cancelLaw_freeCtx ((Shifts.withdraw h.toOrdered c).cancel h.cancel) (by rw [own]; exact going) _

/-- A job that becomes ABORTING gets its one CANCEL (R75). -/
theorem cancelLaw_abort {tag : Tag} (h : CancelLaw s) (going : (s.ctx c).state ≠ .aborting) (own : (s.ctx c).lane = l) :
    CancelLaw ((s.modCtx c fun y => { y with state := .aborting }).modTx l fun t =>
      { t with cancels := t.cancels ++ [⟨c, tag⟩] }) := by
  intro d k
  have count : cancelsOf (((s.modCtx c fun y => { y with state := .aborting }).modTx l fun t =>
      { t with cancels := t.cancels ++ [⟨c, tag⟩] }).lane k).tx d =
      cancelsOf (s.lane k).tx d + if c = d ∧ l = k then 1 else 0 := by
    by_cases hk : l = k
    · subst hk
      rw [lane_modTx_same]
      by_cases hd : c = d <;> simp [cancelsOf, hd, Nat.add_right_comm]
    · rw [lane_modTx_ne _ _ hk, lane_modCtx]
      simp [hk]
  refine count.trans ?_
  rw [show cancelsOf (s.lane k).tx d = _ from h d k, ctx_modTx]
  by_cases hd : c = d
  · subst hd
    simp [going, own]
  · simp [hd]

theorem Scheduled.abortStarted (h : Scheduled s) (going : (s.ctx c).state ≠ .aborting) (started : (s.ctx c).started = true) :
    Scheduled (s.abortStarted c) := by
  have own := ctx_withdraw_same (h.jobs c)
  have cancel := (Shifts.withdraw h.toOrdered c).cancel h.cancel
  obtain ⟨line, order⟩ := h.lanes (s.ctx c).lane
  have w := withdrawn_withdraw order.toLaneLine rfl
  unfold State.abortStarted
  refine h.withdraws ⟨fun k hk => ?_, fun k hk => ?_, fun d => ?_⟩ ?_ ?_ ?_ (fun d hd => ?_)
    (cancelLaw_abort cancel (by rw [own]; exact going) (by rw [own]))
  · rw [lane_modTx_ne _ _ hk.symm, lane_modCtx]
  · rw [lane_modTx_ne _ _ hk.symm, lane_modCtx]
  · rw [ctx_modTx, ctx_modCtx]
    split
    · next hd =>
      subst hd
      rw [own]
      exact .own rfl rfl fun _ => ⟨fun _ _ => rfl, fun _ => rfl, fun _ => started⟩
    · exact .refl ..
  · rw [lane_modTx_same, lane_modCtx]
  · rw [lane_modTx_same, lane_modCtx, w.lane]
  · simp [Context.Placed]
  · rw [ctx_modTx, ctx_modCtx_ne _ _ hd.symm]

end

end Sys2Proof.Machine
end

-- ==== Proofs: Joins, faults and cuts ====
section
/-! PROOFS. Joins, faults and cuts: jobs that join a queue, what no scheduler sees, entry into FAULT and cuts keep the laws of
the schedulers (R41, R53, R99, R107 to R112, R129 to R132). -/

namespace Sys2Proof.Machine

section
variable {s t u : State} {l : LaneId} {line : List CtxId} {c : CtxId}

/-! ### A job joins its queue (R19, R41, R71) -/

/-- A job without a place becomes QUEUED at the tail of its queue, and selection follows. -/
theorem Scheduled.joins {k : ClassId} (h : Scheduled s)
    (lane : t.lane l = { s.lane l with sched := (s.lane l).sched.join k c })
    (lanes : ∀ j, j ≠ l → t.lane j = s.lane j) (unplaced : ¬ (s.ctx c).Placed) (going : (s.ctx c).state ≠ .aborting)
    (own : (t.ctx c).state = .queued ∧ (t.ctx c).lane = l ∧ (t.ctx c).cls = k) (law : JobLaw (t.ctx c))
    (others : ∀ d, d ≠ c → t.ctx d = s.ctx d) : Scheduled (t.select l) := by
  obtain ⟨line, order⟩ := h.lanes l
  have shifts : Shifts l s t := by
    refine ⟨⟨fun j hj => by rw [lanes j hj], fun j hj => by rw [lanes j hj], fun d => ?_⟩,
      cancelLaw_congr (fun j d => ?_) fun d j => ?_⟩
    · by_cases hd : d = c
      · subst hd
        exact ⟨fun _ => law, .inr ⟨fun seen => unplaced seen.1, fun seen => seen.2 own.2.1⟩⟩
      · rw [others d hd]
        exact .refl ..
    · by_cases hj : j = l
      · rw [hj, lane]
      · rw [lanes j hj]
    · by_cases hd : d = c
      · subst hd; simp [going, own.1]
      · rw [others d hd]
  exact ((h.settling l).shifts shifts (order.join (by rw [lane]) unplaced own others)).select

theorem Scheduled.submit (h : Scheduled s) (cls : ClassId) (tag : Tag) (ds : List Descriptor)
    (free : (s.ctx c).state = .free) : Scheduled ((s.admitJob c l cls tag ds).select l) := by
  have own := ctx_admitJob_same s c l cls tag ds
  refine h.joins (c := c) (k := cls) (lane_admitJob_same ..) (fun j hj => lane_admitJob_ne _ _ _ _ _ _ hj.symm)
    (by simp [Context.Placed, free]) (by simp [free]) ?_ ?_ fun d hd => ctx_admitJob_ne _ _ _ _ _ _ hd.symm
  · rw [own]
    exact ⟨rfl, rfl, rfl⟩
  · rw [own]
    exact ⟨fun _ _ => rfl, fun _ => rfl, by simp [admitted]⟩

theorem Scheduled.resume (h : Scheduled s) (suspended : (s.ctx c).state = .suspended) :
    Scheduled ((s.joinTail c).select (s.ctx c).lane) := by
  have law := h.jobs c
  refine h.joins (c := c) (k := (s.ctx c).cls) (lane_joinTail_same _ _ rfl) (fun j hj => lane_joinTail_ne _ _ hj.symm)
    (by simp [Context.Placed, suspended]) (by simp [suspended]) ?_ ?_ fun d hd => ctx_joinTail_ne _ _ hd.symm
  · rw [ctx_joinTail_same]
    exact ⟨rfl, rfl, rfl⟩
  · rw [ctx_joinTail_same]
    exact ⟨fun _ _ => law.link (by simp [suspended]) (by simp [suspended]), fun _ => law.pending (by simp [suspended]),
      by simp⟩

/-! ### Events that no scheduler sees -/

theorem Calm.openLane (s : State) (l : LaneId) : Calm l s (s.openLane l) := by
  unfold State.openLane
  exact (modCtl s l fun open_ => by simp [selects] at open_).trans ((modPair _ l _).trans (post l _ _))

theorem Calm.takeReply (s : State) (l : LaneId) (bit : Byte) (r : Return) : Calm l s (s.takeReply l bit r) := by
  have stored : Calm l s (s.storeReply l (bit.getLsbD 0) r) := by
    unfold State.storeReply State.answerStation
    dsimp only
    split
    · exact modPair s l _
    · split
      · have kept := (modLane s l (f := fun y => { y with returns := y.returns ++ [r] }) rfl id fun _ => rfl).trans
          ((modRcv _ l fun y => { y with lastBit := some (bit.getLsbD 0) }).trans
            (modPair _ l fun p => { p with answers := p.answers ++ [.rack (bit.getLsbD 0)] }))
        split
        · exact kept.trans (post l _ _)
        · exact kept
      · exact modPair s l _
  unfold State.takeReply
  split
  · exact stored
  · exact stored
  all_goals exact refl l s

theorem Calm.takeHold (s : State) (l : LaneId) : Calm l s (s.takeHold l) := by
  unfold State.takeHold
  split
  · next up =>
    exact (modTx s l fun _ => rfl).trans ((modCtl _ l fun _ => by simp [up, selects]).trans (post l _ _))
  all_goals exact refl l s

theorem Calm.retransmit {es : List InFlight} (h : s.retransmit l es = .ok t) : Calm l s t := by
  obtain ⟨fs, -, rfl⟩ := retransmit_ok h
  exact (modPair s l _).trans (modTx _ l fun _ => rfl)

theorem Calm.startAckTimer (s : State) (l : LaneId) : Calm l s (s.startAckTimer l) := by
  unfold State.startAckTimer
  exact modTx s l fun _ => rfl

theorem Calm.retransmitTimed {es : List InFlight}
    (h : (match s.retransmit l es with
      | .error e => .error e
      | .ok u => .ok (u.startAckTimer l)) = Except.ok t) : Calm l s t := by
  split at h
  · cases h
  · next ok =>
    cases h
    exact (retransmit ok).trans (startAckTimer _ l)

theorem Calm.takeReady (h : s.takeReady l = .ok t) : Calm l s t := by
  unfold State.takeReady at h
  split at h
  · next held =>
    have opened : Calm l s ((s.modCtl l fun c => { c with holdTimer := none, state := .up }).postLaneState l .ready) :=
      (modCtl s l fun _ => by simp [held, selects]).trans (post l _ _)
    dsimp only at h
    split at h
    · cases h
      exact opened
    · have timed := opened.trans (startAckTimer _ l)
      split at h
      · cases h
        exact timed
      · split at h
        · cases h
        · next ok =>
          cases h
          exact timed.trans ((retransmit ok).trans (modTx _ l fun _ => rfl))
  all_goals
    cases h
    exact refl l s

/-! ### Entry into FAULT (R99, R129 to R132) -/

/-- A rollback requeues DRAINING jobs and changes no other state. -/
theorem afterRollback_state (l : LaneId) (x : Context) : (afterRollback l x).state =
    if x.state = .draining ∧ needsRollback l x = true then .queued else x.state := by
  unfold afterRollback rolledBack
  by_cases hr : needsRollback l x = true <;> by_cases hd : x.state = .draining <;> simp [hr, hd]

theorem afterRollback_keeps (l : LaneId) (x : Context) : (afterRollback l x).cls = x.cls ∧ (afterRollback l x).link = x.link ∧
    (afterRollback l x).suspendPending = x.suspendPending ∧ (afterRollback l x).started = x.started := by
  unfold afterRollback rolledBack
  split <;> simp

theorem jobLaw_afterRollback {x : Context} (law : JobLaw x) : JobLaw (afterRollback l x) := by
  obtain ⟨-, link, pending, started⟩ := afterRollback_keeps l x
  refine ⟨fun hr hp => ?_, fun hr => ?_, fun hs => ?_⟩ <;> rw [afterRollback_state] at *
  · rw [link]
    split at hr
    · next requeued => exact law.link (by simp [requeued.1]) (by simp [requeued.1])
    · next stays => rw [if_neg stays] at hp; exact law.link hr hp
  · rw [pending]
    split at hr
    · next requeued => exact law.pending (by simp [requeued.1])
    · exact law.pending hr
  · rw [started]
    split at hs
    · simp at hs
    · exact law.started hs

/-- The jobs requeued stand in front of the others of their class (R131). -/
theorem LaneOrder.enterFault (h : LaneOrder s l line) (why : FaultCause) (cause : LaneCause) :
    LaneOrder (s.enterFault l why cause) l line := by
  have lane := lane_enterFault_same s l why cause
  have state : ∀ d, ((s.enterFault l why cause).ctx d).state =
      if (s.ctx d).state = .draining ∧ needsRollback l (s.ctx d) = true then .queued else (s.ctx d).state := fun d => by
    rw [ctx_enterFault, afterRollback_state]
  have own : ∀ d, ((s.enterFault l why cause).ctx d).lane = (s.ctx d).lane := fun d => by
    rw [ctx_enterFault, afterRollback_lane]
  have cls : ∀ d, ((s.enterFault l why cause).ctx d).cls = (s.ctx d).cls := fun d => by
    rw [ctx_enterFault, (afterRollback_keeps ..).1]
  have link : ∀ d, ((s.enterFault l why cause).ctx d).link = (s.ctx d).link := fun d => by
    rw [ctx_enterFault, (afterRollback_keeps ..).2.1]
  have runs : ∀ d, ((s.enterFault l why cause).ctx d).state = .running ↔ (s.ctx d).state = .running := fun d => by
    rw [state]
    split
    · next requeued => simp [requeued.1]
    · rfl
  have waits : ∀ d, ((s.enterFault l why cause).ctx d).state = .preempted ↔ (s.ctx d).state = .preempted := fun d => by
    rw [state]
    split
    · next requeued => simp [requeued.1]
    · rfl
  refine { linked := ?_, nodup := h.nodup, short := h.short, members := fun d => ?_, running := fun d => ?_,
           exclusive := ?_, queued := fun d k => ?_, queues := fun k => ?_, falling := ?_, behind := ?_ }
  · rw [lane]
    exact linked_congr (fun d _ => link d) h.linked
  · rw [runs, waits, own, h.members]
  · rw [runs, own, lane, h.running]
  · rw [lane]
    exact h.exclusive
  · rw [lane, requeuedReady_get, List.mem_append, List.mem_filter, mem_requeued, h.queued, own, cls, state, decide_eq_true_eq]
    by_cases requeued : (s.ctx d).state = .draining ∧ needsRollback l (s.ctx d) = true
    · simp [requeued.1, requeued.2, (needsRollback_iff.mp requeued.2).2.1]
    · rw [if_neg requeued]
      tauto
  · rw [lane, requeuedReady_get]
    refine List.nodup_append.mpr ⟨requeued_nodup.filter _, h.queues k, fun a ha b hb e => ?_⟩
    have drains := (mem_requeued.mp (List.mem_filter.mp ha).1).1
    have queued := ((h.queued b k).mp hb).1
    rw [e, queued] at drains
    cases drains
  · exact h.falling.imp fun {a b} lt => by rwa [cls, cls]
  · rw [lane]
    exact h.behind

/-- The CANCELs in flight return to the cancel list (R129). -/
theorem cancelsOf_returned (x : Transmitter) (c : CtxId) (timer : Option Nat) (retry : Nat) (deferred : Option (BitVec 4)) :
    cancelsOf { x with inFlight := [], cancels := s.returnedCancels x.inFlight ++ x.cancels, ackTimer := timer, retry := retry,
                       deferred := deferred } c = cancelsOf x c := by
  simp [cancelsOf, returnedCancels_eq, List.filter_map, Function.comp_def, Nat.add_comm]

theorem Scheduled.enterFault (h : Scheduled s) (why : FaultCause) (cause : LaneCause) :
    Scheduled (s.enterFault l why cause) := by
  obtain ⟨line, order⟩ := h.lanes l
  have lane := lane_enterFault_same s l why cause
  have acts : Acts l s (s.enterFault l why cause) := by
    refine ⟨fun k hk => by rw [lane_enterFault_ne _ _ _ _ hk.symm], fun k hk => by rw [lane_enterFault_ne _ _ _ _ hk.symm],
      fun d => ?_⟩
    rw [ctx_enterFault]
    by_cases hd : (s.ctx d).lane = l
    · exact .own hd (by rw [afterRollback_lane, hd]) jobLaw_afterRollback
    · rw [afterRollback_of_lane_ne hd]
      exact .refl ..
  refine ((h.settling l).acts acts (order.enterFault why cause) ?_).scheduled fun open_ => ?_
  · refine cancelLaw_congr (fun k d => ?_) (fun d k => ?_) h.cancel
    · by_cases hk : l = k
      · subst hk; rw [lane]; exact cancelsOf_returned ..
      · rw [lane_enterFault_ne _ _ _ _ hk]
    · rw [ctx_enterFault, afterRollback_lane, afterRollback_state]
      split
      · next requeued => simp [requeued.1]
      · rfl
  · rw [lane] at open_
    simp [selects] at open_

theorem Scheduled.retryOr (h : Scheduled s) {again : State → Except Fault State} (ok : s.retryOr l again = .ok t)
    (goes_on : ∀ u, again u = .ok t → Calm l u t) : Scheduled t := by
  have counted : Scheduled (s.modTx l fun x => { x with retry := x.retry + 1 }) := h.calm (.modTx s l fun _ => rfl)
  rcases retryOr_ok ok with ⟨-, rfl⟩ | ⟨-, ok⟩
  · exact counted.enterFault _ _
  · exact counted.calm (goes_on _ ok)

theorem Scheduled.takeNak (h : Scheduled s) {n : Byte} (ok : s.takeNak l n = .ok t) : Scheduled t := by
  unfold State.takeNak at ok
  split at ok
  · split at ok
    · exact h.retryOr ok fun u ok => .retransmitTimed ok
    · exact h.retryOr ok fun u ok => by cases ok; exact .modTx u l fun _ => rfl
    all_goals
      cases ok
      exact h
  · cases ok
    exact h

theorem Scheduled.ackExpiry (h : Scheduled s) (ok : s.ackExpiry l = .ok t) : Scheduled t := by
  unfold State.ackExpiry at ok
  split at ok
  · exact h.retryOr ok fun u ok => .retransmitTimed ok
  · cases ok
    exact h

theorem Scheduled.probeExpiry (h : Scheduled s) : Scheduled (s.probeExpiry l) := by
  unfold State.probeExpiry
  split
  · split
    · exact h.calm ((Calm.modPair s l _).trans (.modCtl _ l id))
    · exact h.enterFault _ _
  · exact h

theorem Scheduled.holdExpiry (h : Scheduled s) : Scheduled (s.holdExpiry l) := by
  unfold State.holdExpiry
  split
  · exact h.enterFault _ _
  · exact h

/-! ### Cuts (R53, R107 to R112) -/

theorem Calm.launch (s : State) (l : LaneId) (c : CtxId) (k f : Nat) (flags : DataFlags) (frame : LaneFrame) :
    Calm l s (s.launch l c (.data k f flags) frame) := by
  unfold State.launch
  exact (modTx s l fun d => by simp [cancelsOf]).trans (modPair _ l _)

/-- A CANCEL cut passes from the cancel list into the in-flight list (R111). -/
theorem Calm.cancelCut (s : State) (l : LaneId) : Calm l s (s.cancelCut l) := by
  unfold State.cancelCut
  split
  · split
    · next e more waits =>
      have cut : s.cutCancel l e = (s.modTx l fun x => { x with
          cancels := more
          inFlight := x.inFlight ++ [⟨x.nextSeq, e.ctx, .cancel⟩]
          nextSeq := x.nextSeq + 1
          ackTimer := if x.inFlight.isEmpty then some (s.lane l).ctl.config.ackTimeout else x.ackTimer }).modPair l fun p =>
            { p with
              frames := p.frames ++ [⟨.cancel (s.lane l).tx.nextSeq (s.ctx e.ctx).tag, some (s.lane l).tx.nextSeq⟩] } := by
        simp only [State.cutCancel, State.launch, State.modTx, State.modPair, modLane_modLane, lane_modLane_same]
        exact modLane_congr s (by simp [waits])
      rw [cut]
      refine (modTx s l fun d => ?_).trans (modPair _ l _)
      by_cases hd : e.ctx = d
      · simp [cancelsOf, waits, hd]
        omega
      · simp [cancelsOf, waits, hd]
    · exact refl l s
  · exact refl l s

/-- A DATA_CUT does nothing, or launches a frame of the running job and advances it (R107, R108). -/
theorem dataCut_ok (h : s.dataCut l = .ok t) : t = s ∨ ∃ c k f flags frame last, (s.lane l).sched.running = some c ∧
    t = (s.launch l c (.data k f flags) frame).advance l c last := by
  unfold State.dataCut at h
  split at h
  · split at h
    · next c runs =>
      unfold State.cutData at h
      dsimp only at h
      split at h
      · cases h
      · split at h
        · cases h
        · exact .inr ⟨c, _, _, _, _, _, runs, (Except.ok.inj h).symm⟩
    · cases h
      exact .inl rfl
  · cases h
    exact .inl rfl

/-- The running job after a cut: more of its segment, a boundary, or a drain (R53, R110). -/
theorem Settling.advance (h : Settling l s) (runs : (s.lane l).sched.running = some c) (last : Bool) :
    Scheduled (s.advance l c last) := by
  obtain ⟨line, order⟩ := h.lanes l
  have state := ((order.running c).mp runs).1
  rw [advance_eq]
  split
  · split
    · refine (h.calm (.modCtx l ?_ fun _ => jobLaw_running state)).evalBoundary runs
      rfl
    · rw [vacate_modCtx]
      exact (h.leaves (g := fun y => { afterSegment y with state := .draining, link := none, suspendPending := false }) runs
        ⟨fun _ _ => rfl, fun _ => rfl, fun _ => rfl⟩ (by simp [Context.Placed]) rfl (by simp)).select
  · refine (h.calm (.modCtx l ?_ fun _ => jobLaw_running state)).scheduled (laneIdle_of_running runs)
    rfl

theorem Scheduled.dataCut (h : Scheduled s) (ok : s.dataCut l = .ok t) : Scheduled t := by
  rcases dataCut_ok ok with rfl | ⟨c, k, f, flags, frame, last, runs, rfl⟩
  · exact h
  · have calm := Calm.launch s l c k f flags frame
    exact ((h.settling l).calm calm).advance (by rw [calm.sched]; exact runs) last

end

end Sys2Proof.Machine
end

-- ==== Proofs: Scheduler laws ====
section
/-! PROOFS. Scheduler laws: acknowledgements, the ends of a lane's jobs, and every step (R39, R40, R42, R75, R101, R116,
R137). -/

namespace Sys2Proof.Machine

/-! ### ACK (R115, R116) -/

section
variable {s t : State} {l : LaneId} {flight : LaneId → List InFlight} {e : InFlight} {more : List InFlight}

/-- The law of the CANCELs, with the in-flight lists given (R75). -/
def State.CancelsWith (s : State) (flight : LaneId → List InFlight) : Prop :=
  ∀ c k, cancelsOf { (s.lane k).tx with inFlight := flight k } c =
    if (s.ctx c).state = .aborting ∧ (s.ctx c).lane = k then 1 else 0

theorem cancelLaw_iff (s : State) : CancelLaw s ↔ s.CancelsWith s.flight := Iff.rfl

theorem cancelsOf_cons (x : Transmitter) (e : InFlight) (more : List InFlight) (c : CtxId) :
    cancelsOf { x with inFlight := e :: more } c =
      cancelsOf { x with inFlight := more } c + if e.ctx = c ∧ e.what = .cancel then 1 else 0 := by
  by_cases he : e.ctx = c ∧ e.what = .cancel
  · simp [cancelsOf, he, Nat.add_assoc]
  · have other : (e.ctx == c && e.what == .cancel) = false := by simpa using he
    simp only [cancelsOf, List.filter_cons, other, Bool.false_eq_true, if_false, if_neg he, Nat.add_zero]

/-- A CANCEL in flight is of an ABORTING job of its lane (R75). -/
theorem State.CancelsWith.aborting (h : s.CancelsWith flight) (hl : flight l = e :: more) (cancel : e.what = .cancel) :
    (s.ctx e.ctx).state = .aborting ∧ (s.ctx e.ctx).lane = l := by
  have count := h e.ctx l
  rw [hl, cancelsOf_cons, if_pos ⟨rfl, cancel⟩] at count
  by_contra hn
  rw [if_neg hn] at count
  omega

/-- The head of an in-flight list goes: of a CANCEL the job is no longer ABORTING, of any other entry it stays as it is. -/
theorem State.CancelsWith.drop (h : s.CancelsWith flight) (hl : flight l = e :: more) (lanes : t.lanes = s.lanes)
    (ended : e.what = .cancel → (t.ctx e.ctx).state ≠ .aborting)
    (stays : ∀ c, ¬ (e.ctx = c ∧ e.what = .cancel) → ∀ k,
      ((t.ctx c).state = .aborting ∧ (t.ctx c).lane = k ↔ (s.ctx c).state = .aborting ∧ (s.ctx c).lane = k)) :
    t.CancelsWith (Function.update flight l more) := by
  intro c k
  have count := h c k
  rw [lane_congr lanes]
  by_cases hk : k = l
  · subst hk
    rw [hl, cancelsOf_cons] at count
    rw [Function.update_self]
    by_cases hc : e.ctx = c ∧ e.what = .cancel
    · obtain ⟨rfl, cancel⟩ := hc
      rw [if_pos ⟨rfl, cancel⟩, if_pos (h.aborting hl cancel)] at count
      simp [ended cancel]
      omega
    · rw [if_neg hc, Nat.add_zero] at count
      rw [count]
      simp only [stays c hc]
  · rw [Function.update_of_ne hk, count]
    by_cases hc : e.ctx = c ∧ e.what = .cancel
    · obtain ⟨rfl, cancel⟩ := hc
      have own := (h.aborting hl cancel).2
      simp [ended cancel, own, Ne.symm hk]
    · simp only [stays c hc]

/-- A job without a place is freed. -/
theorem Rests.freeCtx {c : CtxId} (unplaced : ¬ (s.ctx c).Placed) (reason : EndReason) : Rests s (s.freeCtx c reason) := by
  refine ⟨fun k => by rw [lane_freeCtx], fun k => ?_, fun d => ?_⟩
  · rw [lane_freeCtx]
    exact id
  · by_cases hd : c = d
    · subst hd
      rw [ctx_freeCtx_same]
      exact ⟨fun _ => jobLaw_cleared, .inr ⟨unplaced, by simp [Context.Placed]⟩⟩
    · rw [ctx_freeCtx_ne _ _ hd]
      exact ⟨id, .inl rfl⟩

theorem seat_segmentAcked (c : CtxId) (k : Nat) (d : CtxId) : ((s.segmentAcked l c k).ctx d).seat = (s.ctx d).seat := by
  rw [ctx_segmentAcked]
  split
  · next hd => rw [hd]; rfl
  · rfl

theorem Rests.segmentAcked (s : State) (l : LaneId) (c : CtxId) (k : Nat) : Rests s (s.segmentAcked l c k) := by
  have lane := lane_congr (segmentAcked_lanes (s := s) (l := l) (c := c) k)
  refine ⟨fun j => by rw [lane], fun j => ?_, fun d => ⟨fun law => ?_, .inl (seat_segmentAcked c k d)⟩⟩
  · rw [lane]
    exact id
  · rw [ctx_segmentAcked]
    split
    · next hd => subst hd; exact ⟨law.link, law.pending, law.started⟩
    · exact law

/-- Accounting for the head of a lane's list ends an ABORTING or a DRAINING job, or counts a segment (R116). -/
theorem rests_account (h : s.CancelsWith flight) (hl : flight l = e :: more) :
    Rests s (s.account l e) ∧ (s.account l e).CancelsWith (Function.update flight l more) := by
  have lanes := account_lanes (s := s) (l := l) e
  have aborting := h.aborting hl
  obtain ⟨q, c, what⟩ := e
  dsimp only at aborting
  cases what with
  | cancel =>
    obtain ⟨state, -⟩ := aborting rfl
    rw [account_cancel] at lanes ⊢
    refine ⟨.freeCtx (by simp [Context.Placed, state]) _, h.drop hl lanes (fun _ => by simp) fun d hd k => ?_⟩
    rw [ctx_freeCtx_ne _ _ fun same => hd ⟨same, rfl⟩]
  | data k f flags =>
    cases last : flags.last with
    | false =>
      rw [account_notLast s l q c k f last]
      exact ⟨.refl s, h.drop hl rfl nofun fun _ _ _ => Iff.rfl⟩
    | true =>
      rw [account_last s l q c k f last] at lanes ⊢
      have counted := Rests.segmentAcked s l c k
      have seat := fun d => seat_eq (seat_segmentAcked (s := s) (l := l) c k d)
      split at lanes
      · next completes =>
        have drains := ((completes_iff s c).mp completes).1
        rw [if_pos completes]
        refine ⟨counted.trans (.freeCtx (by simp [Context.Placed, (seat c).1, drains]) _),
          h.drop hl lanes nofun fun d _ j => ?_⟩
        by_cases hd : c = d
        · subst hd; simp [drains]
        · rw [ctx_freeCtx_ne _ _ hd, (seat d).1, (seat d).2.1]
      · next goes_on =>
        rw [if_neg goes_on]
        exact ⟨counted, h.drop hl lanes nofun fun d _ j => by rw [(seat d).1, (seat d).2.1]⟩

theorem rests_accounts {removed rest : List InFlight} (h : s.CancelsWith flight) (hl : flight l = removed ++ rest) :
    Rests s (removed.foldl (fun s e => s.account l e) s) ∧
      (removed.foldl (fun s e => s.account l e) s).CancelsWith (Function.update flight l rest) := by
  induction removed generalizing s flight with
  | nil =>
    rw [List.nil_append] at hl
    rw [← hl, Function.update_eq_self]
    exact ⟨.refl s, h⟩
  | cons e removed ih =>
    obtain ⟨first, cancels⟩ := rests_account h hl
    obtain ⟨later, cancels'⟩ := ih cancels (Function.update_self ..)
    rw [Function.update_idem] at cancels'
    exact ⟨first.trans later, cancels'⟩

theorem Scheduled.takeAck (h : Scheduled s) (n : Byte) : Scheduled (s.takeAck l n) := by
  rcases takeAck_cases s l n with eq | ⟨removed, rest, -, split, eq⟩ <;> rw [eq]
  · exact h
  · obtain ⟨timer, settles⟩ := acknowledge_eq s l removed rest
    obtain ⟨before, -⟩ := splitThrough_some split
    have cut : Rests s (s.modTx l fun t => { t with inFlight := rest }) := by
      refine ⟨fun k => ?_, fun k => ?_, fun c => ⟨id, .inl rfl⟩⟩ <;> by_cases hk : l = k <;> simp [hk]
    have cancels : (s.modTx l fun t => { t with inFlight := rest }).CancelsWith s.flight := fun c k => by
      have count := (cancelLaw_iff s).mp h.cancel c k
      by_cases hk : l = k
      · subst hk; rw [lane_modTx_same]; exact count
      · rw [lane_modTx_ne _ _ hk]; exact count
    obtain ⟨accounted, left⟩ := rests_accounts (l := l) cancels before
    have lanes := accounts_lanes (s := s.modTx l fun t => { t with inFlight := rest }) (l := l) removed
    have flight := flight_modTx (s := s) (l := l) (f := fun t => { t with inFlight := rest })
    rw [settles]
    generalize removed.foldl (fun s e => s.account l e) (s.modTx l fun t => { t with inFlight := rest }) = u at *
    have flight_u : u.flight = Function.update s.flight l rest := by
      rw [← flight]
      exact funext fun k => by rw [State.flight, lane_congr lanes]; rfl
    have cancel : CancelLaw u := by
      rw [cancelLaw_iff, flight_u]
      exact left
    unfold State.settleAck
    exact (h.rests (cut.trans accounted) cancel).calm ((Calm.modTx _ l fun _ => rfl).trans (.modPair _ l _))

end

/-! ### The jobs of a lane end (R101, R138) -/

/-- What has become of the schedulers once the picked ones among the jobs `cs` of a lane have ended. -/
structure LaneEnds (l : LaneId) (goes : Context → Bool) (cs : List CtxId) (s t : State) : Prop where
  ordered : Ordered t
  acts : Acts l s t
  lanes : ∀ k, t.lane k = { s.lane k with sched := (t.lane k).sched }
  jobs : ∀ d, (t.ctx d = {} ∧ (s.ctx d).lane = l) ∨
    (t.ctx d = { s.ctx d with link := (t.ctx d).link } ∧ (d ∈ cs → s.picked l goes d = false))

section
variable {s t u : State} {l : LaneId} {c : CtxId} {cs : List CtxId} {goes : Context → Bool}

/-- One job of the lane withdrawn and freed. -/
theorem Ordered.endJob (h : Ordered s) (hl : (s.ctx c).lane = l) (reason : EndReason) :
    Ordered (s.endJob reason c) ∧ Acts l s (s.endJob reason c) := by
  subst hl
  obtain ⟨line, order⟩ := h.lanes (s.ctx c).lane
  have own := ctx_withdraw_same (h.jobs c)
  have w := withdrawn_withdraw order.toLaneLine rfl
  have acts : Acts (s.ctx c).lane s (s.endJob reason c) :=
    (Shifts.withdraw h c).toActs.trans (.freeCtx (.inl (by rw [own])) _)
  refine ⟨h.acts acts (order.leave w (by rw [lane_endJob]) ?_ fun d hd => ctx_endJob_ne reason hd.symm), acts⟩
  rw [State.endJob, ctx_freeCtx_same]
  simp [Context.Placed]

theorem LaneEnds.cons (blind : ∀ x o, goes { x with link := o } = goes x) (reason : EndReason) (h : Ordered s)
    (hc : s.picked l goes c = true) (later : LaneEnds l goes cs (s.endJob reason c) t) : LaneEnds l goes (c :: cs) s t := by
  have hl := picked_lane hc
  obtain ⟨line, order⟩ := h.lanes l
  have w := withdrawn_withdraw order.toLaneLine hl
  have gone : (s.endJob reason c).ctx c = {} := ctx_freeCtx_same _ _ _
  refine ⟨later.ordered, (h.endJob hl reason).2.trans later.acts, fun k => ?_, fun d => ?_⟩
  · rw [later.lanes k, lane_endJob]
    by_cases hk : k = l
    · rw [hk, w.lane]
    · rw [w.lanes k hk]
  · by_cases hd : d = c
    · subst hd
      refine .inl ⟨?_, hl⟩
      rcases later.jobs d with ⟨cleared, -⟩ | ⟨kept, -⟩
      · exact cleared
      · rw [gone] at kept
        have state : (t.ctx d).state = .free := congrArg Context.state kept
        have link := (later.ordered.jobs d).link (by rw [state]; simp) (by rw [state]; simp)
        rw [kept, link]
    · have first : (s.endJob reason c).ctx d = { s.ctx d with link := ((s.withdraw c).ctx d).link } :=
        (ctx_endJob_ne reason (Ne.symm hd)).trans (w.others d hd)
      rcases later.jobs d with ⟨cleared, own⟩ | ⟨kept, left⟩
      · rw [first] at own
        exact .inl ⟨cleared, own⟩
      · refine .inr ⟨by rw [kept, first], fun mem => ?_⟩
        have left := left ((List.mem_cons.mp mem).resolve_left hd)
        simp only [State.picked, first] at left
        rwa [blind] at left

theorem LaneEnds.skip (hc : s.picked l goes c = false) (later : LaneEnds l goes cs s t) : LaneEnds l goes (c :: cs) s t := by
  refine ⟨later.ordered, later.acts, later.lanes, fun d => (later.jobs d).imp_right fun ⟨kept, left⟩ => ⟨kept, fun mem => ?_⟩⟩
  rcases List.mem_cons.mp mem with rfl | mem
  · exact hc
  · exact left mem

/-- The jobs of a lane that an event ends, whatever the store holds. -/
theorem Ordered.endJobs (blind : ∀ x o, goes { x with link := o } = goes x) (h : Ordered s) (reason : EndReason) :
    LaneEnds l goes allCtxs s (s.endJobs l goes reason) := by
  have general : ∀ (cs : List CtxId) (s : State), Ordered s →
      LaneEnds l goes cs s (cs.foldl (fun s c => if s.picked l goes c then s.endJob reason c else s) s) := by
    intro cs
    induction cs with
    | nil => exact fun s h => ⟨h, .refl l s, fun _ => rfl, fun _ => .inr ⟨rfl, nofun⟩⟩
    | cons c cs ih =>
      intro s h
      rw [List.foldl_cons]
      split
      · next hc => exact (ih _ (h.endJob (picked_lane hc) reason).1).cons blind reason h hc
      · next hc => exact (ih _ h).skip (by simpa using hc)
  exact general allCtxs s h

/-- With every ABORTING job of the lane ended, the lane is without CANCELs and the others keep theirs. -/
theorem LaneEnds.cancel {v : State} (ended : LaneEnds l goes allCtxs v u) (h : CancelLaw s) (ctx : v.ctx = s.ctx)
    (ctxs : t.ctxs = u.ctxs) (ends : ∀ c, (s.ctx c).state = .aborting → (s.ctx c).lane = l → s.picked l goes c = true)
    (empty : ∀ c, cancelsOf (t.lane l).tx c = 0) (others : ∀ k, k ≠ l → (t.lane k).tx = (s.lane k).tx) : CancelLaw t := by
  intro c k
  have jobs := ended.jobs c
  have picked_eq : v.picked l goes c = s.picked l goes c := by simp only [State.picked, ctx]
  rw [picked_eq, ctx, ← ctx_congr ctxs] at jobs
  have count : cancelsOf (t.lane k).tx c = if (s.ctx c).state = .aborting ∧ (s.ctx c).lane = k ∧ k ≠ l then 1 else 0 := by
    by_cases hk : k = l
    · subst hk; simp [empty]
    · rw [others k hk]
      refine (h c k).trans ?_
      simp [hk]
  refine count.trans ?_
  rcases jobs with ⟨gone, own⟩ | ⟨kept, left⟩
  · simp only [gone]
    by_cases hk : k = l
    · simp [hk]
    · simp [own, Ne.symm hk]
  · rw [kept]
    by_cases hk : k = l
    · subst hk
      have left := left (mem_allCtxs c)
      have not_aborting : ¬ ((s.ctx c).state = .aborting ∧ (s.ctx c).lane = k) := fun ⟨state, own⟩ => by
        rw [ends c state own] at left
        cases left
      simp [not_aborting]
    · simp [hk]

/-- LANE_RESET (R101). -/
theorem Scheduled.resetLane (h : Scheduled s) : Scheduled (s.resetLane l) := by
  have stopping : Ordered (s.stopping l) := h.toOrdered.rests
    ⟨fun k => by by_cases hk : l = k <;> simp [State.stopping, hk],
      fun k => by by_cases hk : l = k <;> simp [State.stopping, hk, selects], fun _ => ⟨id, .inl rfl⟩⟩
  have ended := stopping.endJobs (l := l) (goes := fun _ => true) (fun _ _ => rfl) .laneReset
  rw [resetLane_eq]
  generalize (s.stopping l).endJobs l (fun _ => true) .laneReset = e at ended
  have lane_same := lane_stopped_same e l
  have lane_ne : ∀ k, k ≠ l → (e.stopped l).lane k = { s.lane k with sched := (e.lane k).sched } := fun k hk => by
    rw [lane_stopped_ne _ hk.symm, ended.lanes, lane_stopping_ne _ hk.symm]
  have ordered : Ordered ((e.stopped l).postLaneState l .laneReset) := ended.ordered.rests
    ⟨fun k => by by_cases hk : l = k <;> simp [State.stopped, hk],
      fun k => by by_cases hk : l = k <;> simp [State.stopped, hk], fun _ => ⟨id, .inl rfl⟩⟩
  refine ⟨ordered, fun k => ?_, ?_⟩
  · by_cases hk : k = l
    · subst hk
      intro open_
      rw [lane_postLaneState, lane_same, ended.lanes, lane_stopping_same] at open_
      simp [selects] at open_
    · have idle := h.idle k
      unfold LaneIdle at idle ⊢
      rw [lane_postLaneState, lane_ne k hk, ended.acts.sched k hk, lane_stopping_ne _ (Ne.symm hk)]
      exact idle
  · refine ended.cancel (s := s) h.cancel rfl rfl (fun c state own => ?_) (fun c => ?_) fun k hk => ?_
    · simp [State.picked, state, own]
    · rw [lane_postLaneState, lane_same]
      rfl
    · rw [lane_postLaneState, lane_ne k hk]

/-- A station restart (R137 to R139). -/
theorem Scheduled.stationRestart (h : Scheduled s) (open_ : selects (s.lane l).ctl.state = true) (window : Nat)
    (station : Word16) : Scheduled (s.stationRestart l window station) := by
  have restarting : Ordered (s.restarting l window station) := h.toOrdered.rests
    ⟨fun k => by by_cases hk : l = k <;> simp [State.restarting, hk],
      fun k => by by_cases hk : l = k <;> simp [State.restarting, hk], fun _ => ⟨id, .inl rfl⟩⟩
  have ended := restarting.endJobs (l := l) (goes := fun x => x.started) (fun _ _ => rfl) .stationRestart
  rw [stationRestart_eq]
  unfold State.restarted
  generalize (s.restarting l window station).endJobs l (fun x => x.started) .stationRestart = e at ended
  have lane_ne : ∀ k, k ≠ l → ((e.modCtl l fun c => { c with state := .up }).postLaneState l .stationRestart).lane k =
      { s.lane k with sched := (e.lane k).sched } := fun k hk => by
    rw [lane_postLaneState, lane_modCtl_ne _ _ hk.symm, ended.lanes, lane_restarting_ne _ _ _ hk.symm]
  have closed : ∀ k,
      selects (((e.modCtl l fun c => { c with state := .up }).postLaneState l .stationRestart).lane k).ctl.state = true →
        selects (e.lane k).ctl.state = true := fun k => by
    by_cases hk : l = k
    · subst hk
      intro _
      rw [ended.lanes, lane_restarting_same]
      exact open_
    · rw [lane_postLaneState, lane_modCtl_ne _ _ hk]
      exact id
  have ordered : Ordered ((e.modCtl l fun c => { c with state := .up }).postLaneState l .stationRestart) :=
    ended.ordered.rests ⟨fun k => by by_cases hk : l = k <;> simp [hk], closed, fun _ => ⟨id, .inl rfl⟩⟩
  refine Settling.select ⟨ordered, ?_, fun k hk => ?_⟩
  · refine ended.cancel (s := s) h.cancel rfl rfl (fun c state own => ?_) (fun c => ?_) fun k hk => ?_
    · simp [State.picked, state, own, (h.jobs c).started (.inr state)]
    · rw [lane_postLaneState, lane_modCtl_same, ended.lanes, lane_restarting_same]
      rfl
    · rw [lane_ne k hk]
  · have idle := h.idle k
    unfold LaneIdle at idle ⊢
    rw [lane_ne k hk, ended.acts.sched k hk, lane_restarting_ne _ _ _ (Ne.symm hk)]
    exact idle

/-- A HELLO that completes a synchronisation (R92). -/
theorem Scheduled.synchronise (h : Scheduled s) (window : Nat) (station : Word16) :
    Scheduled (s.synchronise l window station) := by
  have lane : (s.opened l window station).lane l = { s.lane l with
      ctl := { (s.lane l).ctl with probeTimer := none, window := window, stationId := station, state := .up }
      pair := { (s.lane l).pair with probes := 0 }
      tx := { (s.lane l).tx with nextSeq := 0 }
      rcv := { (s.lane l).rcv with lastBit := none } } := by simp [State.opened]
  have lane_ne : ∀ k, k ≠ l → (s.opened l window station).lane k = s.lane k := fun k hk => by simp [State.opened, Ne.symm hk]
  obtain ⟨line, order⟩ := h.lanes l
  have settling : Settling l (s.opened l window station) := by
    refine (h.settling l).acts ⟨fun k hk => by rw [lane_ne k hk], fun k hk => by rw [lane_ne k hk], fun c => .refl ..⟩
      (order.of_seats (by rw [lane]) fun _ => .inl rfl)
      (cancelLaw_congr (s := s) (fun k c => ?_) (fun _ _ => Iff.rfl) h.cancel)
    by_cases hk : k = l
    · rw [hk, lane]
      rfl
    · rw [lane_ne k hk]
  rw [synchronise_eq]
  split
  · next runs => exact settling.evalBoundary runs
  · exact settling.select

theorem Scheduled.takeHello (h : Scheduled s) (window : Byte) (station : Word16) :
    Scheduled (s.takeHello l window station) := by
  rcases takeHello_cases s l window station with eq | ⟨-, -, ⟨-, eq⟩ | ⟨open_, eq⟩⟩ <;> rw [eq]
  · exact h
  · exact h.synchronise _ station
  · exact h.stationRestart open_ _ station

end

/-! ### Every step -/

theorem scheduled_partReset (s : State) (cause : ResetCause) (straps : BitVec 2) (keep : Bool) :
    Scheduled (s.partReset cause straps keep) :=
  scheduleLaw_iff.mp (scheduleLaw_congr (s := State.reset) rfl rfl reset_scheduleLaw)

theorem Scheduled.event {s t : State} (h : Scheduled s) (event : Event s t) : Scheduled t := by
  cases event with
  | quiet => exact h
  | partReset cause straps keep => exact scheduled_partReset s cause straps keep
  | submit c l cls tag ds free _ _ _ _ _ => exact h.submit cls tag ds (lowestFree_some free)
  | suspend c waits => exact h.suspend waits
  | setPending c b runs => exact h.calm (.modCtx (s.ctx c).lane rfl fun _ => jobLaw_running runs)
  | resume c suspended => exact h.resume suspended
  | abortUnstarted c _ going _ => exact h.abortUnstarted going
  | abortStarted c _ going started => exact h.abortStarted going started
  | configure l cfg _ _ => exact h.calm (.modCtl s l id)
  | openLane l _ => exact h.calm (.openLane s l)
  | resetLane l => exact h.resetLane
  | fetch l r rs _ => exact h.calm (.modLane s l rfl id fun _ => rfl)
  | reply l bit r _ => exact h.calm (.takeReply s l bit r)
  | hello l window id => exact h.takeHello window id
  | ack l n => exact h.takeAck n
  | nak l n t ok => exact h.takeNak ok
  | hold l => exact h.calm (.takeHold s l)
  | ready l t ok => exact h.calm (.takeReady ok)
  | probeExpiry l => exact h.probeExpiry
  | holdExpiry l => exact h.holdExpiry
  | ackExpiry l t ok => exact h.ackExpiry ok
  | dataCut l t ok => exact h.dataCut ok
  | cancelCut l => exact h.calm (.cancelCut s l)

/-- Settles O58: a step is one event of one lane; it keeps the order of that lane, leaves the seats in the others, and ends in
selection where it has emptied the running slot or brought a candidate. -/
theorem stepKeepsTheScheduleLaws : Obligations.StepKeepsTheScheduleLaws := by
  unfold Obligations.StepKeepsTheScheduleLaws
  intro s t h stepped
  obtain ⟨v, before, u, event, after⟩ := step_reaches stepped
  have taken := (scheduleLaw_iff.mp h).calm (.of_alike (l := 0) before)
  exact scheduleLaw_iff.mpr ((taken.event event).calm (.of_alike (l := 0) after))

end Sys2Proof.Machine
end

-- ==== Proofs: Scheduling operations ====
section
/-! PROOFS. Scheduling operations: selection, boundaries and the splice, and the events that end in them (R40 to R55, R92,
R107 to R110). -/

namespace Sys2Proof.Machine

/-! ### Selection (R42 to R44) -/

/-- The best head is what selection and boundaries find (R38). -/
theorem bestReady_of_bestHead {ready : Vector (List CtxId) 4} {k : ClassId} {c : CtxId} {q : List CtxId}
    (h : bestHead ready k c q) : bestReady ready = some (k, c) := by
  obtain ⟨queue, above⟩ := h
  cases hb : bestReady ready with
  | none => simp [bestReady_none.mp hb k] at queue
  | some found =>
    obtain ⟨j, d⟩ := found
    obtain ⟨before, i, after, split, head, skipped⟩ := List.findSome?_eq_some_iff.mp hb
    simp only [Option.map_eq_some_iff, Prod.mk.injEq] at head
    obtain ⟨d', head, rfl, rfl⟩ := head
    have sorted : (before ++ i :: after).Pairwise (· < ·) := split ▸ List.pairwise_lt_finRange 4
    have mem : k ∈ before ++ i :: after := split ▸ List.mem_finRange k
    have same : i = k := by
      rcases List.mem_append.mp mem with hk | hk
      · simpa [queue] using skipped k hk
      · rcases List.mem_cons.mp hk with rfl | hk
        · rfl
        · have lower : i < k := List.rel_of_pairwise_cons (List.pairwise_append.mp sorted).2.1 hk
          simp [above i lower] at head
    subst same
    rw [queue, List.head?_cons] at head
    rw [Option.some.inj head]

theorem bestHead_tail {ready : Vector (List CtxId) 4} {k : ClassId} {c : CtxId} {q : List CtxId} (h : bestHead ready k c q) :
    setQueue ready k ready[k].tail = ready.set k q := by
  rw [h.1]
  rfl

section
variable {s : State} {l : LaneId} {c : CtxId} {k : ClassId} {q : List CtxId}

theorem takeHead_eq (best : bestHead (s.lane l).sched.ready k c q) : s.takeHead l k c =
    (s.modSched l fun d => { d with ready := d.ready.set k q, running := some c, resume := none }).modCtx c
      fun x => { x with state := .running, link := (s.lane l).sched.resume } := by
  unfold State.takeHead
  have sched : (s.modSched l fun d => ⟨setQueue d.ready k d.ready[k].tail, some c, none⟩) =
      s.modSched l fun d => { d with ready := d.ready.set k q, running := some c, resume := none } :=
    modLane_congr s (by dsimp only; rw [bestHead_tail best])
  rw [sched]

theorem select_of_head (open_ : selects (s.lane l).ctl.state = true) (idle : (s.lane l).sched.running = none)
    (best : bestReady (s.lane l).sched.ready = some (k, c))
    (higher : ∀ r, (s.lane l).sched.resume = some r → (s.ctx c).cls < (s.ctx r).cls) : s.select l = s.takeHead l k c := by
  rcases select_cases s l with ⟨-, busy⟩ | ⟨-, -, ⟨k', c', best', eq, -⟩ | ⟨r, resume, -, lower⟩⟩
  · simp [open_, idle, best] at busy
  · rw [best] at best'
    cases best'
    exact eq
  · exact absurd (higher r resume) (lower k c best)

theorem select_of_resume {r : CtxId} (open_ : selects (s.lane l).ctl.state = true) (idle : (s.lane l).sched.running = none)
    (resume : (s.lane l).sched.resume = some r)
    (lower : ∀ k c, bestReady (s.lane l).sched.ready = some (k, c) → ¬ (s.ctx c).cls < (s.ctx r).cls) :
    s.select l = s.takeResume l r := by
  rcases select_cases s l with ⟨-, busy⟩ | ⟨-, -, ⟨k, c, best, -, higher⟩ | ⟨r', resume', eq, -⟩⟩
  · simp [open_, idle, resume] at busy
  · exact absurd (higher r resume) (lower k c best)
  · rw [resume] at resume'
    cases resume'
    exact eq

theorem select_of_none (resume : (s.lane l).sched.resume = none) (ready : bestReady (s.lane l).sched.ready = none) :
    s.select l = s := by
  rcases select_cases s l with ⟨eq, -⟩ | ⟨-, -, ⟨k, c, best, -, -⟩ | ⟨r, resume', -, -⟩⟩
  · exact eq
  · simp [ready] at best
  · simp [resume] at resume'

end

/-- Settles O26: the three things selection can do, by the candidates. -/
theorem selectionComparesTheCandidates : Obligations.SelectionComparesTheCandidates := by
  unfold Obligations.SelectionComparesTheCandidates
  intro s l d
  refine ⟨fun open_ idle k c q best higher => ?_, fun open_ idle r resume lower => ?_, fun none_due => ?_⟩
  · rw [select_of_head open_ idle (bestReady_of_bestHead best) higher, takeHead_eq best]
  · refine select_of_resume open_ idle resume fun k' c' found => ?_
    rcases lower with empty | ⟨k, c, q, best, lower⟩
    · rw [bestReady_none.mpr empty] at found
      cases found
    · rw [bestReady_of_bestHead best] at found
      cases found
      exact lower
  · rcases none_due with closed | busy | ⟨resume, empty⟩
    · exact select_of_busy s l (.inl closed)
    · exact select_of_busy s l (.inr busy)
    · exact select_of_none resume (bestReady_none.mpr empty)

/-! ### Boundaries (R46 to R51) -/

section
variable {s : State} {l : LaneId} {c : CtxId}

/-- A boundary is bound by the BIND flag of the segment before it (R48). -/
theorem boundBefore_iff (s : State) (c : CtxId) (n : Nat) :
    s.boundBefore c n = true ↔ ∃ k g, n = k + 1 ∧ s.segmentAt c k = some g ∧ g.bindFlag = true := by
  cases n with
  | zero => simp [State.boundBefore]
  | succ k => cases hg : s.segmentAt c k <;> simp [State.boundBefore, hg]

theorem evalBoundary_bound (runs : (s.lane l).sched.running = some c) (bound : s.boundBefore c (s.ctx c).sent = true) :
    s.evalBoundary l = s := by
  simp only [State.evalBoundary, runs, if_pos bound]

theorem evalBoundary_pending (runs : (s.lane l).sched.running = some c) (unbound : s.boundBefore c (s.ctx c).sent = false)
    (pending : (s.ctx c).suspendPending = true) : s.evalBoundary l = s.suspendAtBoundary l c := by
  simp only [State.evalBoundary, runs, unbound, pending, if_true, Bool.false_eq_true, if_false]

theorem evalBoundary_head {k : ClassId} {h : CtxId} (runs : (s.lane l).sched.running = some c)
    (unbound : s.boundBefore c (s.ctx c).sent = false) (pending : (s.ctx c).suspendPending = false)
    (best : bestReady (s.lane l).sched.ready = some (k, h)) :
    s.evalBoundary l = if (s.ctx h).cls < (s.ctx c).cls then s.preempt l c k h else s := by
  simp only [State.evalBoundary, runs, unbound, pending, best, Bool.false_eq_true, if_false]

theorem evalBoundary_empty (runs : (s.lane l).sched.running = some c) (unbound : s.boundBefore c (s.ctx c).sent = false)
    (pending : (s.ctx c).suspendPending = false) (best : bestReady (s.lane l).sched.ready = none) : s.evalBoundary l = s := by
  simp only [State.evalBoundary, runs, unbound, pending, best, Bool.false_eq_true, if_false]

theorem preempt_eq {k : ClassId} {h : CtxId} {q : List CtxId} (best : bestHead (s.lane l).sched.ready k h q) :
    s.preempt l c k h = ((s.modSched l fun d => { d with ready := d.ready.set k q, running := some h }).modCtx c
      fun y => { y with state := .preempted }).modCtx h fun y => { y with state := .running, link := some c } := by
  have sched : (s.modSched l fun d => { d with ready := setQueue d.ready k d.ready[k].tail, running := some h }) =
      s.modSched l fun d => { d with ready := d.ready.set k q, running := some h } :=
    modLane_congr s (by dsimp only; rw [bestHead_tail best])
  rw [← sched]
  rfl

end

/-- Settles O27: the boundary's four outcomes, in the order of R49. -/
theorem boundaryIsEvaluatedInOrder : Obligations.BoundaryIsEvaluatedInOrder := by
  unfold Obligations.BoundaryIsEvaluatedInOrder
  intro s l c runs x bound
  have bound_iff : s.boundBefore c x.sent = true ↔ bound := boundBefore_iff s c x.sent
  have unbound : ¬ bound → s.boundBefore c x.sent = false := fun h => by rwa [← bound_iff, Bool.not_eq_true] at h
  refine ⟨fun h => evalBoundary_bound runs (bound_iff.mpr h), fun h pending => ?_, fun h pending k d q best => ?_,
    fun h pending empty => evalBoundary_empty runs (unbound h) pending (bestReady_none.mpr empty)⟩
  · rw [evalBoundary_pending runs (unbound h) pending, suspendAtBoundary_eq]
  · have eq := evalBoundary_head runs (unbound h) pending (bestReady_of_bestHead best)
    refine ⟨fun higher => ?_, fun lower => ?_⟩
    · rw [eq, if_pos higher, preempt_eq best]
    · rw [eq, if_neg lower]

/-! ### The splice (R55) -/

section
variable {s t : State} {l : LaneId} {c : CtxId} {line : List CtxId}

/-- The chain behind a lane's slot is what is linked there. -/
theorem chainOf_linked (h : Linked s ((s.lane l).sched.running.or (s.lane l).sched.resume)
    ((s.lane l).sched.running.toList ++ line)) (short : line.length ≤ 4) : chainOf s l = line := by
  unfold chainOf
  cases hr : (s.lane l).sched.running with
  | none =>
    rw [hr, Option.none_or] at h
    exact chainFrom_linked h short
  | some r =>
    rw [hr, Option.some_or] at h
    exact chainFrom_linked h.2 short

/-- What a PREEMPTED job's withdrawal leaves of the chain (R55, R56). -/
theorem Withdrawn.chainOf_eq (w : Withdrawn s t l c line) (h : LaneOrder s l line) (other : (s.ctx c).state ≠ .running) :
    chainOf t l = (chainOf s l).erase c := by
  have running : (t.lane l).sched.running = (s.lane l).sched.running := by rw [w.running, h.running_ne other]
  have distinct := h.nodup
  rw [← h.eq_chain] at distinct
  have rest : line.filter (· ≠ c) = (s.lane l).sched.running.toList ++ (chainOf s l).erase c := by
    have slot : (s.lane l).sched.running.toList.filter (· ≠ c) = (s.lane l).sched.running.toList :=
      filter_ne_of_notMem fun mem => other ((h.running c).mp (Option.mem_toList.mp mem)).1
    rw [← h.eq_chain, List.filter_append, slot, (List.nodup_append.mp distinct).2.1.erase_eq_filter]
    exact congrArg _ (List.filter_congr fun d _ => by by_cases hd : d = c <;> simp [hd])
  refine chainOf_linked ?_ ((List.length_erase_le ..).trans (Nat.le_succ_of_le h.chain_length))
  rw [running, ← rest, ← running]
  exact w.linked

/-- The job whose link names a context is the holder that the splice finds (R55). -/
theorem linkHolder_of_link {d : CtxId} (h : LaneLine s l line) (mem : d ∈ line) (link : (s.ctx d).link = some c) :
    s.linkHolder l c = some d := by
  obtain ⟨before, after, rfl⟩ := split_of_link h.linked mem link
  exact linkHolder_eq h

/-- A job that another names is not at the resume point (R40). -/
theorem LaneLine.resume_ne_of_link {d : CtxId} (h : LaneLine s l line) (mem : d ∈ line) (link : (s.ctx d).link = some c) :
    (s.lane l).sched.resume ≠ some c := by
  intro resume
  have idle : (s.lane l).sched.running = none := by
    cases hr : (s.lane l).sched.running with
    | none => rfl
    | some r => simp [h.exclusive (by simp [hr])] at resume
  obtain ⟨before, after, rfl⟩ := split_of_link h.linked mem link
  have head := linked_head h.linked
  have distinct := h.nodup
  rw [idle, Option.none_or, resume] at head
  cases before with
  | nil =>
    cases head
    simp at distinct
  | cons b bs =>
    cases head
    simp at distinct

/-- The splice touches its lane's resume point alone, and only when it names the job (R55). -/
theorem lane_splice_same (s : State) (l : LaneId) (c : CtxId) : (s.splice l c).lane l =
    { s.lane l with sched := { (s.lane l).sched with
      resume := if (s.lane l).sched.resume = some c then (s.ctx c).link else (s.lane l).sched.resume } } := by
  by_cases resume : (s.lane l).sched.resume = some c
  · rw [splice_resume resume, lane_modCtx, lane_modSched_same, if_pos resume]
  · simp only [State.splice, if_neg resume, lane_modCtx]
    split <;> rfl

end

/-- Settles O28: the line without the job, and the one holder of its link. -/
theorem spliceClosesTheChain : Obligations.SpliceClosesTheChain := by
  unfold Obligations.SpliceClosesTheChain
  intro s c schedule preempted l t
  have scheduled := scheduleLaw_iff.mp schedule
  have order := laneOrder_of_scheduleLaw schedule l
  have w : Withdrawn s t l c ((s.lane l).sched.running.toList ++ chainOf s l) := by
    have withdrawn := withdrawn_withdraw order.toLaneLine (c := c) rfl
    unfold State.withdraw at withdrawn
    rwa [preempted] at withdrawn
  have own : t.ctx c = { s.ctx c with link := none } := ctx_splice_same s l c
  refine ⟨w.chainOf_eq order (by simp [preempted]), by rw [own], w.lanes, fun d hd link => ?_, w.linkKept, own,
    lane_splice_same s l c, ?_⟩
  · have mem : d ∈ (s.lane l).sched.running.toList ++ chainOf s l := by
      refine (order.members d).mpr ⟨?_, (scheduled.link_lane link).symm⟩
      by_contra unplaced
      rw [not_or] at unplaced
      rw [(scheduled.jobs d).link unplaced.1 unplaced.2] at link
      cases link
    have eq := splice_holder (order.resume_ne_of_link mem link) (linkHolder_of_link order.toLaneLine mem link)
    have holder : (s.splice l c).ctx d = { s.ctx d with link := (s.ctx c).link } := by
      rw [eq, ctx_modCtx_ne _ _ hd.symm, ctx_modCtx_same]
    exact holder
  · have elsewhere := w.elsewhere
    obtain ⟨pool, freeList, pins, mem, notices, host, heldInReset, powerOnDue, pending⟩ := elsewhere
    rw [← pool, ← freeList, ← pins, ← mem, ← notices, ← host, ← heldInReset, ← powerOnDue, ← pending]

/-! ### A HELLO that completes a synchronisation (R92) -/

theorem takeHello_syncing {s : State} {l : LaneId} {window : Byte} {id : Word16} (state : (s.lane l).ctl.state = .syncing)
    (low : 1 ≤ window.toNat) (high : window.toNat ≤ 8) : s.takeHello l window id = s.synchronise l window.toNat id := by
  unfold State.takeHello
  rw [if_neg (by simp only [Config.maxWindow]; omega), state]

/-- The lane's values after the HELLO, as one change (R92). -/
theorem opened_eq (s : State) (l : LaneId) (window : Nat) (id : Word16) : s.opened l window id =
    (s.modLane l fun x => { x with
      ctl := { x.ctl with state := .up, window := window, stationId := id, probeTimer := none }
      pair := { x.pair with probes := 0 }
      tx := { x.tx with nextSeq := 0 }
      rcv := { x.rcv with lastBit := none } }).post (.laneState l .up .hello) := by
  simp only [State.opened, State.postLaneState, State.modCtl, State.modPair, State.modTx, State.modRcv, modLane_modLane,
    lane_modLane_same]

/-- Settles O38: by the running slot, which the HELLO leaves. -/
theorem helloCompletesSynchronisation : Obligations.HelloCompletesSynchronisation := by
  unfold Obligations.HelloCompletesSynchronisation
  intro s u l w id handed state low high v
  have taken : exec (.hello l w id) s = .next (u.synchronise l w.toNat id) :=
    (onFrame_handsOn handed).trans (congrArg Host.Outcome.next (takeHello_syncing state low high))
  have slot : (v.lane l).sched.running = (u.lane l).sched.running := by
    simp only [v, lane_post, lane_modLane_same]
  rw [synchronise_eq, opened_eq] at taken
  refine ⟨fun runs => ?_, fun idle => ?_⟩ <;> refine taken.trans (congrArg Host.Outcome.next ?_)
  · obtain ⟨c, runs⟩ := Option.ne_none_iff_exists'.mp runs
    rw [show (v.lane l).sched.running = some c from slot.trans runs]
  · rw [show (v.lane l).sched.running = none from slot.trans idle]

/-! ### DATA cuts (R53, R107 to R110) -/

section
variable {s : State} {l : LaneId} {c : CtxId}

theorem canCut_iff : s.canCut l = true ↔
    (s.lane l).ctl.state = .up ∧ (s.lane l).tx.inFlight.length < (s.lane l).ctl.window := by
  simp [State.canCut]

/-- Nothing is cut outside UP, without room, while a CANCEL waits, or without a running job (R107, R108). -/
theorem dataCut_nothing (h : (s.lane l).ctl.state ≠ .up ∨ (s.lane l).ctl.window ≤ (s.lane l).tx.inFlight.length ∨
    (s.lane l).tx.cancels ≠ [] ∨ (s.lane l).sched.running = none) : s.dataCut l = .ok s := by
  unfold State.dataCut
  split
  · next can =>
    rw [Bool.and_eq_true, canCut_iff, List.isEmpty_iff] at can
    obtain ⟨⟨up, room⟩, none_waits⟩ := can
    rcases h with closed | full | waits | idle
    · exact absurd up closed
    · omega
    · exact absurd none_waits waits
    · rw [idle]
  · rfl

theorem dataCut_running (up : (s.lane l).ctl.state = .up) (room : (s.lane l).tx.inFlight.length < (s.lane l).ctl.window)
    (none_waits : (s.lane l).tx.cancels = []) (runs : (s.lane l).sched.running = some c) :
    s.dataCut l = s.cutData l c := by
  unfold State.dataCut
  rw [if_pos (by rw [canCut_iff.mpr ⟨up, room⟩, none_waits]; rfl), runs]

/-- The flags of a frame by its place (R108, R109). -/
theorem flagsFor_eq (x : Context) (g : Segment) (p k f : Nat) : flagsFor x g p k f =
    ⟨decide (f = 0), decide (f * p + min p (g.length - f * p) = g.length),
      decide (f * p + min p (g.length - f * p) = g.length ∧ k + 1 = x.segCount), decide (k < x.resend)⟩ := by
  simp [flagsFor, isLastFrame, frameSpan, Bool.decide_and, Bool.beq_eq_decide_eq]

/-- A cut of the running job, with the frame that it forms (R108). -/
theorem cutData_frame {g : Segment} (segment : s.segmentAt c (s.ctx c).sent = some g)
    (inside : (s.ctx c).cut * s.payload l < g.length) (fits : g.offset + g.length ≤ 131072) : s.cutData l c =
      .ok ((s.launch l c (s.nextFrame l c g) (frameOf s l ⟨(s.lane l).tx.nextSeq, c, s.nextFrame l c g⟩)).advance l c
        (isLastFrame g (s.payload l) (s.ctx c).cut)) := by
  have formed := formFrame_formable (s := s) (l := l) (e := ⟨(s.lane l).tx.nextSeq, c, s.nextFrame l c g⟩)
    fun k f flags hw => by
      cases hw
      exact ⟨g, segment, inside, fits⟩
  unfold State.nextFrame State.payload at formed ⊢
  unfold State.cutData
  simp only [segment, formed]
  rfl

/-- A launch as one change of the lane (R107, R112, R113). -/
theorem launch_eq (s : State) (l : LaneId) (c : CtxId) (what : SentFrame) (frame : LaneFrame) : s.launch l c what frame =
    s.modLane l fun x => { x with
      tx := { x.tx with
        inFlight := x.tx.inFlight ++ [⟨(s.lane l).tx.nextSeq, c, what⟩]
        nextSeq := x.tx.nextSeq + 1
        ackTimer := (if x.tx.inFlight = [] then some (s.lane l).ctl.config.ackTimeout else x.tx.ackTimer) }
      pair := { x.pair with frames := x.pair.frames ++ [⟨frame, some (s.lane l).tx.nextSeq⟩] } } := by
  simp only [State.launch, State.modTx, State.modPair, modLane_modLane, List.isEmpty_iff]

/-- A job that drains at its last segment's end, as one change (R53, R110). -/
theorem vacate_drained (s : State) (l : LaneId) (c : CtxId) :
    (s.modCtx c fun x => { afterSegment x with state := .draining }).vacate l c =
      ((s.modCtx c afterSegment).modSched l fun d => { d with running := none, resume := (s.ctx c).link }).modCtx c
        fun j => { j with state := .draining, link := none, suspendPending := false } := by
  rw [vacate_modCtx]
  exact (modCtx_modCtx (s.modSched l fun d => { d with running := none, resume := (s.ctx c).link }) c afterSegment
    fun j => { j with state := .draining, link := none, suspendPending := false }).symm

end

/-- Settles O41: the launch of the frame at the job's place, and the advance by whether it ends its segment and its job. -/
theorem dataCutSendsTheNextFrame : Obligations.DataCutSendsTheNextFrame := by
  unfold Obligations.DataCutSendsTheNextFrame
  intro s l held x p
  have taken : exec (.dataCut l) s = outcomeOf (s.dataCut l) := unlessHeld_running held _
  refine ⟨fun nothing => by rw [taken, dataCut_nothing nothing]; rfl, ?_⟩
  intro c g up room none_waits runs segment inside fits j n last flags frame v cutLast
  have flags_eq : flagsFor j g p j.sent j.cut = flags := flagsFor_eq j g p j.sent j.cut
  have last_iff : isLastFrame g p j.cut = true ↔ last := by
    rw [show isLastFrame g p j.cut = flags.last from congrArg DataFlags.last flags_eq]
    exact decide_eq_true_iff
  have frame_eq : frameOf s l ⟨x.tx.nextSeq, c, .data j.sent j.cut flags⟩ = frame := by
    simp only [frameOf, segment, Option.getD_some, frame, j, n, p, x]
  have launched : s.launch l c (s.nextFrame l c g) (frameOf s l ⟨x.tx.nextSeq, c, s.nextFrame l c g⟩) = v := by
    rw [State.nextFrame, show flagsFor (s.ctx c) g (s.payload l) (s.ctx c).sent (s.ctx c).cut = flags from flags_eq, frame_eq]
    exact launch_eq ..
  have cut : exec (.dataCut l) s = .next (v.advance l c (isLastFrame g p j.cut)) := by
    rw [taken, dataCut_running up room none_waits runs, cutData_frame segment inside fits]
    exact congrArg (fun u : State => Host.Outcome.next (u.advance l c (isLastFrame g p j.cut))) launched
  have ctx : v.ctx c = j := rfl
  rw [advance_eq, ctx] at cut
  refine ⟨fun inner => ?_, fun ends more => ?_, fun ends job_ends => ?_⟩
  · rw [cut, if_neg (last_iff.not.mpr inner)]
    rfl
  · rw [cut, if_pos (last_iff.mpr ends), if_pos more]
    rfl
  · rw [cut, if_pos (last_iff.mpr ends), if_neg (Nat.not_lt.mpr job_ends), vacate_drained]
    rfl

end Sys2Proof.Machine
end

-- ==== Proofs: Job requests ====
section
/-! PROOFS. Job requests: SUSPEND, RESUME and ABORT in each state of the job (R62 to R75). -/

namespace Sys2Proof.Machine

/-! ### Jobs and lanes do not look at the host link -/

/-- The part with another host link. -/
def State.withHost (s : State) (h : HostLink) : State := { s with host := h }

/-- An answer with another host link in its state. -/
def Answer.withHost (a : Answer) (h : HostLink) : Answer := { a with state := a.state.withHost h }

section
variable (s : State) (h : HostLink) (c : CtxId) (l : LaneId)

@[simp] theorem ctx_withHost : (s.withHost h).ctx c = s.ctx c := rfl

@[simp] theorem lane_withHost : (s.withHost h).lane l = s.lane l := rfl

@[simp] theorem modCtx_withHost (f : Context → Context) : (s.withHost h).modCtx c f = (s.modCtx c f).withHost h := rfl

@[simp] theorem modTx_withHost (f : Transmitter → Transmitter) : (s.withHost h).modTx l f = (s.modTx l f).withHost h := rfl

@[simp] theorem joinTail_withHost : (s.withHost h).joinTail c = (s.joinTail c).withHost h := rfl

@[simp] theorem freeCtx_withHost (r : EndReason) : (s.withHost h).freeCtx c r = (s.freeCtx c r).withHost h := rfl

/-- Selection compares candidates that the host link does not touch (R43). -/
@[simp] theorem select_withHost : (s.withHost h).select l = (s.select l).withHost h := by
  rcases select_cases s l with ⟨eq, closed | busy | ⟨ready, resume⟩⟩ |
    ⟨open_, idle, ⟨k, c, best, eq, higher⟩ | ⟨r, resume, eq, lower⟩⟩ <;> rw [eq]
  · exact select_of_busy _ l (.inl closed)
  · exact select_of_busy _ l (.inr (Option.isSome_iff_ne_none.mp busy))
  · exact select_of_none resume ready
  · exact select_of_head (s := s.withHost h) open_ idle best higher
  · exact select_of_resume (s := s.withHost h) open_ idle resume lower

@[simp] theorem selectIf_withHost (was : JobState) : (s.withHost h).selectIf was l = (s.selectIf was l).withHost h := by
  unfold State.selectIf
  rw [select_withHost]
  split <;> rfl

@[simp] theorem splice_withHost : (s.withHost h).splice l c = (s.splice l c).withHost h := by
  have holder : (s.withHost h).linkHolder l c = s.linkHolder l c := rfl
  unfold State.splice
  simp only [lane_withHost, ctx_withHost, holder]
  split
  · rfl
  · cases s.linkHolder l c <;> rfl

@[simp] theorem withdraw_withHost : (s.withHost h).withdraw c = (s.withdraw c).withHost h := by
  unfold State.withdraw
  rw [ctx_withHost]
  cases (s.ctx c).state with
  | preempted => exact splice_withHost s h c _
  | _ => rfl

theorem suspendJob_withHost : suspendJob (s.withHost h) c = (suspendJob s c).withHost h := by
  unfold suspendJob
  simp only [ctx_withHost, withdraw_withHost, modCtx_withHost]
  cases (s.ctx c).state <;> rfl

theorem resumeJob_withHost : resumeJob (s.withHost h) c = (resumeJob s c).withHost h := by
  unfold resumeJob
  simp only [ctx_withHost, joinTail_withHost, select_withHost, modCtx_withHost]
  cases (s.ctx c).state with
  | running =>
    dsimp only
    rw [apply_ite (Answer.withHost · h)]
    rfl
  | _ => rfl

theorem abortUnstarted_withHost : (s.withHost h).abortUnstarted c = (s.abortUnstarted c).withHost h := by
  simp only [State.abortUnstarted, ctx_withHost, withdraw_withHost, freeCtx_withHost, selectIf_withHost]

theorem abortStarted_withHost : (s.withHost h).abortStarted c = (s.abortStarted c).withHost h := by
  simp only [State.abortStarted, ctx_withHost, withdraw_withHost, modCtx_withHost, modTx_withHost, selectIf_withHost]

theorem abortJob_withHost : abortJob (s.withHost h) c = (abortJob s c).withHost h := by
  unfold abortJob
  rw [ctx_withHost, abortStarted_withHost, abortUnstarted_withHost]
  by_cases aborting : (s.ctx c).state = .aborting
  · simp only [if_pos aborting]
    rfl
  · simp only [if_neg aborting]
    cases (s.ctx c).started <;> rfl

end

/-- A request on the job that holds the tag acts on that job and is answered with what the act answers (R62, R171). -/
theorem jobRequest_acts {s : State} {r : Request} {k : Byte} {tag : Tag} {c : CtxId} {act : State → CtxId → Answer}
    (same : ∀ s h c, act (s.withHost h) c = (act s c).withHost h) (h : performs s r) (kind : k = replyKindOf r)
    (body : r.body = bytes16 tag) (held : holdsTag s tag c) :
    takeRequest s r k (fun v => onJob r.body v (act v)) =
      .next (State.answered (act s c).state r (act s c).body (act s c).resets) := by
  have found : s.taking.findJob tag = some c := findJob_of_holdsTag held
  have taken : onJob r.body s.taking (act s.taking) = (act s c).withHost s.taking.host := by
    rw [body, onJob_found _ _ found]
    exact same s s.taking.host c
  have left : (act s c).state.host = s.host := congrArg (·.state.host) (same s s.host c)
  rw [takeRequest_performs h kind (by rw [taken]; rfl), taken, ← left]
  rfl

/-! ### Withdrawal in each state (R56) -/

section
variable {s : State} {c : CtxId}

theorem withdraw_queued (h : (s.ctx c).state = .queued) : s.withdraw c = s.unqueue c := by simp only [State.withdraw, h]

theorem withdraw_running (h : (s.ctx c).state = .running) : s.withdraw c = s.vacate (s.ctx c).lane c := by
  simp only [State.withdraw, h]

theorem withdraw_preempted (h : (s.ctx c).state = .preempted) : s.withdraw c = s.splice (s.ctx c).lane c := by
  simp only [State.withdraw, h]

/-- A job in no place of its lane has nothing to leave. -/
theorem withdraw_nowhere (h : (s.ctx c).state = .suspended ∨ (s.ctx c).state = .draining) : s.withdraw c = s := by
  rcases h with h | h <;> simp only [State.withdraw, h]

end

/-! ### SUSPEND (R63 to R66) -/

section
variable {s : State} {c : CtxId}

theorem suspendJob_waiting (h : (s.ctx c).state = .queued ∨ (s.ctx c).state = .preempted) : suspendJob s c =
    { state := (s.withdraw c).modCtx c fun x => { x with state := .suspended }, body := [statusCode .ok] } := by
  rcases h with h | h <;> simp only [suspendJob, h]

theorem suspendJob_running (h : (s.ctx c).state = .running) : suspendJob s c =
    { state := s.modCtx c fun x => { x with suspendPending := true }, body := [statusCode .pending] } := by
  simp only [suspendJob, h]

theorem suspendJob_wrongState
    (h : (s.ctx c).state = .suspended ∨ (s.ctx c).state = .draining ∨ (s.ctx c).state = .aborting) :
    suspendJob s c = refuse s .wrongState := by
  rcases h with h | h | h <;> simp only [suspendJob, h]

end

/-- Settles O22: SUSPEND acts on the job found by its tag, by its state; a waiting job leaves its own place. -/
theorem suspendActsByTheJobsState : Obligations.SuspendActsByTheJobsState := by
  unfold Obligations.SuspendActsByTheJobsState
  intro s seq tag c h held x r
  have acts : exec (.suspend seq (bytes16 tag)) s =
      .next (State.answered (suspendJob s c).state r (suspendJob s c).body (suspendJob s c).resets) :=
    jobRequest_acts suspendJob_withHost h rfl rfl held
  refine ⟨fun queued => ?_, fun preempted => ?_, fun running => ?_, fun elsewhere => ?_⟩
  · rw [acts, suspendJob_waiting (.inl queued), withdraw_queued queued]
    rfl
  · rw [acts, suspendJob_waiting (.inr preempted), withdraw_preempted preempted]
  · rw [acts, suspendJob_running running]
  · rw [acts, suspendJob_wrongState elsewhere]
    rfl

/-! ### RESUME (R70, R71) -/

section
variable {s : State} {c : CtxId} {l : LaneId}

theorem resumeJob_suspended (h : (s.ctx c).state = .suspended) : resumeJob s c =
    { state := (s.joinTail c).select (s.ctx c).lane, body := [statusCode .ok] } := by simp only [resumeJob, h]

theorem resumeJob_pending (h : (s.ctx c).state = .running) (pending : (s.ctx c).suspendPending = true) : resumeJob s c =
    { state := s.modCtx c fun x => { x with suspendPending := false }, body := [statusCode .ok] } := by
  simp only [resumeJob, h, pending, if_true]

theorem resumeJob_wrongState (h : ((s.ctx c).state = .running ∧ (s.ctx c).suspendPending = false) ∨
    (s.ctx c).state = .queued ∨ (s.ctx c).state = .preempted ∨ (s.ctx c).state = .draining ∨ (s.ctx c).state = .aborting) :
    resumeJob s c = refuse s .wrongState := by
  rcases h with ⟨h, pending⟩ | h | h | h | h
  · simp only [resumeJob, h, pending, Bool.false_eq_true, if_false]
  all_goals simp only [resumeJob, h]

/-- On a lane that is busy or not open the job waits in its queue (R44). -/
theorem select_joinTail_busy (hl : (s.ctx c).lane = l)
    (h : selects (s.lane l).ctl.state = false ∨ (s.lane l).sched.running ≠ none) :
    (s.joinTail c).select l = s.joinTail c :=
  select_of_busy _ _ (by rw [lane_joinTail_same s c hl]; exact h)

theorem joinTail_eq (hl : (s.ctx c).lane = l) : s.joinTail c =
    (s.modSched l (·.join (s.ctx c).cls c)).modCtx c fun y => { y with state := .queued } := by
  subst hl
  rfl

theorem bestHead_join {d : Scheduler} {k : ClassId} (empty : ∀ j : ClassId, d.ready[j] = []) :
    bestHead (d.join k c).ready k c [] := by
  refine ⟨?_, fun j hj => ?_⟩ <;> rw [Scheduler.join, setQueue_get, empty]
  · rw [if_pos rfl, List.nil_append]
  · rw [if_neg hj.ne', empty]

/-- A job that joins empty queues leaves them empty when it is taken. -/
theorem join_ready_set {d : Scheduler} {k : ClassId} (empty : ∀ j : ClassId, d.ready[j] = []) :
    (d.join k c).ready.set k [] = d.ready := ready_ext fun j => by
  rw [← setQueue, Scheduler.join, setQueue_get, setQueue_get, empty j]
  split <;> rfl

/-- On an open lane with nothing to run the job takes the slot, and its queue is empty again (R42, R43). -/
theorem select_joinTail_idle (hl : (s.ctx c).lane = l) (open_ : selects (s.lane l).ctl.state = true)
    (idle : (s.lane l).sched.running = none) (resume : (s.lane l).sched.resume = none)
    (empty : ∀ k : ClassId, (s.lane l).sched.ready[k] = []) : (s.joinTail c).select l =
      (s.modSched l fun d => { d with running := some c }).modCtx c fun y => { y with state := .running, link := none } := by
  have lane := lane_joinTail_same s c hl
  have head : bestHead ((s.joinTail c).lane l).sched.ready (s.ctx c).cls c [] := by
    rw [lane]
    exact bestHead_join empty
  have point : ((s.joinTail c).lane l).sched.resume = none := by
    rw [lane]
    exact resume
  have taken := select_of_head (s := s.joinTail c) (by rw [lane]; exact open_) (by rw [lane]; exact idle)
    (bestReady_of_bestHead head) fun r hr => nomatch point.symm.trans hr
  have slot : (s.modSched l (·.join (s.ctx c).cls c)).modSched l (fun d =>
      { d with ready := d.ready.set (s.ctx c).cls [], running := some c, resume := none }) =
      s.modSched l fun d => { d with running := some c } := by
    rw [State.modSched, State.modSched, modLane_modLane]
    refine modLane_congr s ?_
    dsimp only
    rw [join_ready_set empty, resume]
  calc (s.joinTail c).select l
      = (((s.modSched l (·.join (s.ctx c).cls c)).modSched l fun d =>
          { d with ready := d.ready.set (s.ctx c).cls [], running := some c, resume := none }).modCtx c
            fun y => { y with state := .queued }).modCtx c fun y => { y with state := .running, link := none } := by
        rw [taken, takeHead_eq head, point, joinTail_eq hl]
        rfl
    _ = _ := by rw [slot, modCtx_modCtx]

end

/-- Settles O23: RESUME acts on the job found by its tag, and a suspended job joins its queue before the selection. -/
theorem resumeActsByTheJobsState : Obligations.ResumeActsByTheJobsState := by
  unfold Obligations.ResumeActsByTheJobsState
  intro s seq tag c h held x d r run
  have acts : exec (.resume seq (bytes16 tag)) s =
      .next (State.answered (resumeJob s c).state r (resumeJob s c).body (resumeJob s c).resets) :=
    jobRequest_acts resumeJob_withHost h rfl rfl held
  refine ⟨fun suspended busy => ?_, fun suspended open_ idle resume empty => ?_, fun running pending => ?_,
    fun elsewhere => ?_⟩
  · simp only [run]
    rw [acts, resumeJob_suspended suspended, select_joinTail_busy rfl busy]
    rfl
  · simp only [run]
    rw [acts, resumeJob_suspended suspended, select_joinTail_idle rfl open_ idle resume empty]
  · simp only [run]
    rw [acts, resumeJob_pending running pending]
  · rw [acts, resumeJob_wrongState elsewhere]
    rfl

/-! ### ABORT (R72 to R75) -/

section
variable {s : State} {c : CtxId}

theorem abortJob_aborting (h : (s.ctx c).state = .aborting) : abortJob s c = refuse s .wrongState := by
  rw [abortJob, if_pos h]

theorem abortJob_unstarted (h : (s.ctx c).state ≠ .aborting) (started : (s.ctx c).started = false) : abortJob s c =
    { state := s.abortUnstarted c, body := [statusCode .ok, jobStateCode .free] } := by
  rw [abortJob, if_neg h, started]
  rfl

theorem abortJob_started (h : (s.ctx c).state ≠ .aborting) (started : (s.ctx c).started = true) : abortJob s c =
    { state := s.abortStarted c, body := [statusCode .ok, jobStateCode .aborting] } := by
  rw [abortJob, if_neg h, if_pos started]

/-- What every ABORT of a job that is not ABORTING does: withdrawal, the job's own `finish`, and the selection that a vacated
slot asks for (R73, R74). -/
def State.abortWith (s : State) (c : CtxId) (finish : State → State) : State :=
  (finish (s.withdraw c)).selectIf (s.ctx c).state (s.ctx c).lane

theorem abortWith_queued (finish : State → State) (h : (s.ctx c).state = .queued) :
    s.abortWith c finish = finish (s.unqueue c) := by
  rw [State.abortWith, withdraw_queued h, h]
  rfl

theorem abortWith_running (finish : State → State) (h : (s.ctx c).state = .running) :
    s.abortWith c finish = (finish (s.vacate (s.ctx c).lane c)).select (s.ctx c).lane := by
  rw [State.abortWith, withdraw_running h, h]
  rfl

theorem abortWith_preempted (finish : State → State) (h : (s.ctx c).state = .preempted) :
    s.abortWith c finish = finish (s.splice (s.ctx c).lane c) := by
  rw [State.abortWith, withdraw_preempted h, h]
  rfl

theorem abortWith_nowhere (finish : State → State) (h : (s.ctx c).state = .suspended ∨ (s.ctx c).state = .draining) :
    s.abortWith c finish = finish s := by
  rw [State.abortWith, withdraw_nowhere h]
  rcases h with h | h <;> rw [h] <;> rfl

/-- The job ABORTING, its CANCEL at the tail of its lane's cancel list (R74, R75). -/
def State.cancelling (s : State) (l : LaneId) (c : CtxId) (tag : Tag) : State :=
  (s.modCtx c fun y => { y with state := .aborting }).modTx l fun t => { t with cancels := t.cancels ++ [⟨c, tag⟩] }

theorem abortUnstarted_eq_abortWith : s.abortUnstarted c = s.abortWith c fun t => t.freeCtx c .aborted := rfl

theorem abortStarted_eq_abortWith :
    s.abortStarted c = s.abortWith c fun t => t.cancelling (s.ctx c).lane c (s.ctx c).tag := rfl

end

/-- Settles O24: an unstarted job is withdrawn from its own place and freed, and selection follows from the running slot. -/
theorem abortFreesAnUnstartedJob : Obligations.AbortFreesAnUnstartedJob := by
  unfold Obligations.AbortFreesAnUnstartedJob
  intro s seq tag c h held started x run
  have acts {t : State} (going : x.state ≠ .aborting) (eq : (s.abortWith c fun t => t.freeCtx c .aborted) = t) : run t := by
    have performed := jobRequest_acts abortJob_withHost h rfl rfl held
    rw [abortJob_unstarted going started, abortUnstarted_eq_abortWith, eq] at performed
    exact performed
  refine ⟨fun queued => ?_, fun running => ?_, fun preempted => ?_, fun suspended => ?_⟩
  · exact acts (by simp [queued]) (abortWith_queued _ queued)
  · exact acts (by simp [running]) (abortWith_running _ running)
  · exact acts (by simp [preempted]) (abortWith_preempted _ preempted)
  · exact acts (by simp [suspended]) (abortWith_nowhere _ (.inl suspended))

/-- Settles O25: a started job is withdrawn from its own place and its CANCEL created, and selection follows from the running
slot. -/
theorem abortCancelsAStartedJob : Obligations.AbortCancelsAStartedJob := by
  unfold Obligations.AbortCancelsAStartedJob
  intro s seq tag c h held x cancelled run
  have performed := jobRequest_acts abortJob_withHost h rfl rfl held
  have acts {t : State} (started : x.started = true) (going : x.state ≠ .aborting)
      (eq : (s.abortWith c fun t => t.cancelling x.lane c tag) = t) : run t := by
    obtain ⟨-, -, tagged, -⟩ := held
    rw [abortJob_started going started, abortStarted_eq_abortWith, tagged, eq] at performed
    exact performed
  refine ⟨fun started queued => ?_, fun started running => ?_, fun started preempted => ?_, fun started unplaced => ?_,
    fun aborting => ?_⟩
  · exact acts started (by simp [queued]) (abortWith_queued _ queued)
  · exact acts started (by simp [running]) (abortWith_running _ running)
  · exact acts started (by simp [preempted]) (abortWith_preempted _ preempted)
  · exact acts started (by rcases unplaced with h | h <;> simp [h]) (abortWith_nowhere _ unplaced)
  · rw [abortJob_aborting aborting] at performed
    exact performed

end Sys2Proof.Machine
end

-- ==== Proofs: Station frames ====
section
/-! PROOFS. Station frames: what the Lane Receiver hands on and its owner ignores, and HOLD and READY (R84, R93, R95, R97,
R118, R119, R121). -/

namespace Sys2Proof.Machine

section
variable {s u : State} {l : LaneId}

/-! ### Frames that are ignored (R84, R93, R118, R119) -/

theorem takeHello_window {window : Byte} (id : Word16) (range : window.toNat = 0 ∨ 8 < window.toNat) :
    s.takeHello l window id = s := if_pos range

theorem takeHello_closed (window : Byte) (id : Word16)
    (closed : (s.lane l).ctl.state = .down ∨ (s.lane l).ctl.state = .fault) : s.takeHello l window id = s := by
  unfold State.takeHello
  split
  · rfl
  · rcases closed with eq | eq <;> rw [eq]

theorem takeHold_ignored (h : (s.lane l).ctl.state ≠ .up) : s.takeHold l = s := by
  unfold State.takeHold
  split
  · next up => exact absurd up h
  all_goals rfl

theorem takeReady_ignored (h : (s.lane l).ctl.state ≠ .held) : s.takeReady l = .ok s := by
  unfold State.takeReady
  split
  · next held => exact absurd held h
  all_goals rfl

/-- The lane hears no ACK, NAK or REPLY (R84). -/
def LaneState.Deaf (st : LaneState) : Prop := st = .down ∨ st = .syncing ∨ st = .fault

theorem takeAck_deaf (n : Byte) (deaf : (s.lane l).ctl.state.Deaf) : s.takeAck l n = s := by
  unfold State.takeAck
  rcases deaf with eq | eq | eq <;> rw [eq]

theorem takeNak_deaf (n : Byte) (deaf : (s.lane l).ctl.state.Deaf) : s.takeNak l n = .ok s := by
  unfold State.takeNak
  split
  · rcases deaf with eq | eq | eq <;> rw [eq]
  · rfl

theorem takeReply_deaf (bit : Byte) (r : Return) (deaf : (s.lane l).ctl.state.Deaf) : s.takeReply l bit r = s := by
  unfold State.takeReply
  rcases deaf with eq | eq | eq <;> rw [eq]

/-- No entry in flight has the number (R118, R119). -/
theorem splitThrough_none {n : Nat} {es : List InFlight} (h : ∀ e ∈ es, e.seq.toNat ≠ n) : splitThrough n es = none := by
  induction es with
  | nil => rfl
  | cons e es ih =>
    rw [List.forall_mem_cons] at h
    rw [splitThrough, if_neg h.1, ih h.2]
    rfl

theorem takeAck_unnamed {n : Byte} (h : ∀ e ∈ (s.lane l).tx.inFlight, e.seq.toNat ≠ n.toNat) : s.takeAck l n = s := by
  unfold State.takeAck
  rw [splitThrough_none h]
  split <;> rfl

theorem takeNak_unnamed {n : Byte} (h : ∀ e ∈ (s.lane l).tx.inFlight, e.seq.toNat ≠ n.toNat) : s.takeNak l n = .ok s :=
  if_neg (by simpa using h)

/-- A frame handed on whose owner does nothing. -/
theorem onFrame_ignored {frame : List Byte} {owner : State → Except Fault State} (h : handsOn s l frame u)
    (ignored : owner u = .ok u) : onFrame s l frame owner = .next u := by
  rw [onFrame_handsOn h, ignored]
  rfl

theorem execReply_fits (bit code : Byte) (tag : Tag) {body : List Byte} (fits : body.length ≤ 64) :
    execReply l bit tag code body s =
      onFrame s l (replyBytes bit tag code body) fun s => .ok (s.takeReply l bit ⟨tag, code, body⟩) := if_pos fits

/-! ### HOLD (R95) -/

/-- The lane's values after a HOLD taken in UP, as one change (R95). -/
theorem takeHold_up (up : (s.lane l).ctl.state = .up) : s.takeHold l = (s.modLane l fun x => { x with
    tx := { x.tx with ackTimer := none }
    ctl := { x.ctl with
      state := .held
      holdTimer := (if x.ctl.config.holdLimit = 0 then none else some x.ctl.config.holdLimit) } }).post
    (.laneState l .held .hold) := by
  unfold State.takeHold
  rw [up]
  simp only [State.postLaneState, State.modTx, State.modCtl, modLane_modLane, lane_modLane_same]
  exact congrArg (State.post · _) (modLane_congr s rfl)

/-! ### READY (R97, R121) -/

/-- The lane is UP again, and LANE_STATE is posted (R97). -/
def State.released (s : State) (l : LaneId) : State :=
  (s.modCtl l fun c => { c with state := .up, holdTimer := none }).post (.laneState l .up .ready)

/-- With frames in flight the ack timer is started in full (R97, R113). -/
theorem readied_eq (s : State) (l : LaneId) : s.readied l =
    (s.released l).modTx l fun t => { t with ackTimer := some (s.lane l).ctl.config.ackTimeout } := by
  unfold State.readied State.startAckTimer State.postLaneState
  rw [lane_post, lane_modCtl_same]
  rfl

theorem takeReady_empty (held : (s.lane l).ctl.state = .held) (empty : (s.lane l).tx.inFlight = []) :
    s.takeReady l = .ok (s.released l) := by
  unfold State.takeReady State.postLaneState
  rw [held]
  simp only [lane_post, lane_modCtl_same, empty]
  rfl

/-- With frames in flight a deferred retransmission, if there is one, follows from its point on (R121). -/
theorem takeReady_busy (held : (s.lane l).ctl.state = .held) (busy : (s.lane l).tx.inFlight ≠ []) : s.takeReady l =
    (s.lane l).tx.deferred.elim (.ok (s.readied l)) fun d =>
      ((s.readied l).retransmit l (fromSeq (s.lane l).tx.inFlight d)).map fun v =>
        v.modTx l fun t => { t with deferred := none } := by
  unfold State.takeReady
  have flight : ((s.readied l).lane l).tx.inFlight = (s.lane l).tx.inFlight := by simp [readied_eq, State.released]
  have point : ((s.readied l).lane l).tx.deferred = (s.lane l).tx.deferred := by simp [readied_eq, State.released]
  rw [held]
  dsimp only
  rw [if_neg (by simpa using busy)]
  rw [← point, ← flight]
  split
  · next none_deferred =>
    rw [show ((s.readied l).lane l).tx.deferred = none from none_deferred]
    rfl
  · next d deferred =>
    rw [show ((s.readied l).lane l).tx.deferred = some d from deferred, Option.elim_some]
    have same := Eq.refl ((s.readied l).retransmit l (fromSeq ((s.readied l).lane l).tx.inFlight d))
    split
    · next fault refused => rw [same.trans refused]; rfl
    · next v formed => rw [same.trans formed]; rfl

/-- The entries from a number on, behind entries of other numbers (R120, R121). -/
theorem fromSeq_append {before after : List InFlight} {e : InFlight} (h : ∀ y ∈ before, y.seq ≠ e.seq) :
    fromSeq (before ++ e :: after) e.seq = e :: after := by
  unfold fromSeq
  rw [List.dropWhile_append_of_pos (by simpa using h), List.dropWhile_cons_of_neg (by simp)]

end

/-- Settles O37: each frame, by the state of the lane or by the field that makes its owner ignore it. -/
theorem ignoredStationFramesChangeNothing : Obligations.IgnoredStationFramesChangeNothing := by
  unfold Obligations.IgnoredStationFramesChangeNothing
  intro s u l st quiet
  refine ⟨fun w id handed why => onFrame_ignored handed (congrArg Except.ok ?_),
    fun handed notUp => onFrame_ignored handed (congrArg Except.ok (takeHold_ignored notUp)),
    fun handed notHeld => onFrame_ignored handed (takeReady_ignored notHeld),
    fun n handed why => onFrame_ignored handed (congrArg Except.ok ?_),
    fun n handed why => onFrame_ignored handed ?_, fun b tag code body fits handed deaf => ?_⟩
  · rcases why with zero | above | closed
    · exact takeHello_window id (.inl zero)
    · exact takeHello_window id (.inr above)
    · exact takeHello_closed w id closed
  · exact why.elim (takeAck_deaf n) takeAck_unnamed
  · exact why.elim (takeNak_deaf n) takeNak_unnamed
  · exact (execReply_fits b code tag fits).trans
      (onFrame_ignored handed (congrArg Except.ok (takeReply_deaf b ⟨tag, code, body⟩ deaf)))

/-- Settles O40: HOLD is one change of the lane; READY releases it, starts the ack timer of a list that is not empty, and
forms the frames from the deferred point on again. -/
theorem holdAndReadyStopAndReleaseTheLane : Obligations.HoldAndReadyStopAndReleaseTheLane := by
  unfold Obligations.HoldAndReadyStopAndReleaseTheLane
  intro s u l x
  refine ⟨fun handed up => (onFrame_handsOn handed).trans (congrArg Host.Outcome.next (takeHold_up up)),
    fun handed held => ?_⟩
  intro v timed
  have taken : exec (.ready l) s = outcomeOf (u.takeReady l) := onFrame_handsOn handed
  have readied : u.readied l = timed := readied_eq u l
  refine ⟨fun empty => ?_, fun busy point => ?_, fun before e after flight others point formed => ?_⟩
  · rw [taken, takeReady_empty held empty]
    rfl
  · rw [taken, takeReady_busy held busy, point, readied]
    rfl
  · have busy : x.tx.inFlight ≠ [] := by simp [flight]
    have config : (timed.lane l).ctl.config = (u.lane l).ctl.config := by
      rw [← readied]
      simp [readied_eq, State.released]
    have sent : timed.retransmit l (e :: after) = .ok (timed.resent l (e :: after)) :=
      retransmit_formable fun y hy => (formable_congr (s := timed) (t := u) rfl rfl config).mpr (formed y hy)
    rw [taken, takeReady_busy held busy, point, readied, flight]
    simp only [Option.elim_some, fromSeq_append others, sent]
    rfl

end Sys2Proof.Machine
end

-- ==== Proofs: Lane laws ====
section
/-! PROOFS. Lane laws: what keeps the laws of every lane: window, numbering, timers, settings and returns (R85, R88, R91, R95,
R103, R106, R113, R145). -/

namespace Sys2Proof.Machine

/-! ### What the laws of a lane depend on -/

/-- The laws of a lane speak of its transmitter, controller and return list alone. -/
theorem LaneLaw.congr {x y : Lane} (h : LaneLaw x) (tx : y.tx = x.tx) (ctl : y.ctl = x.ctl)
    (returns : y.returns = x.returns) : LaneLaw y := by
  cases x
  cases y
  dsimp only at tx ctl returns
  subst tx ctl returns
  exact h

/-- No transmitter, controller or return list has changed. -/
structure SameStationSide (s t : State) : Prop where
  tx : ∀ l, (t.lane l).tx = (s.lane l).tx
  ctl : ∀ l, (t.lane l).ctl = (s.lane l).ctl
  returns : ∀ l, (t.lane l).returns = (s.lane l).returns

namespace SameStationSide

variable (s : State) (l : LaneId) (c : CtxId)

theorem refl : SameStationSide s s := ⟨fun _ => rfl, fun _ => rfl, fun _ => rfl⟩

variable {s l c} in
theorem trans {t u : State} (h : SameStationSide s t) (h' : SameStationSide t u) : SameStationSide s u :=
  ⟨fun l => (h'.tx l).trans (h.tx l), fun l => (h'.ctl l).trans (h.ctl l), fun l => (h'.returns l).trans (h.returns l)⟩

variable {s} in
theorem of_lanes {t : State} (h : t.lanes = s.lanes) : SameStationSide s t :=
  ⟨fun l => by rw [lane_congr h], fun l => by rw [lane_congr h], fun l => by rw [lane_congr h]⟩

variable {s} in
theorem of_alike {t : State} (h : Alike s t) : SameStationSide s t := ⟨h.tx, h.ctl, h.returns⟩

theorem modSched (f : Scheduler → Scheduler) : SameStationSide s (s.modSched l f) := by
  refine ⟨fun k => ?_, fun k => ?_, fun k => ?_⟩ <;> by_cases h : l = k <;> simp [h]

theorem modCtx (f : Context → Context) : SameStationSide s (s.modCtx c f) := of_lanes (modCtx_lanes ..)

theorem post (b : NoticeBody) : SameStationSide s (s.post b) := of_lanes (post_lanes ..)

/-! ### Scheduling leaves the station's side -/

theorem select : SameStationSide s (s.select l) := by
  rcases select_cases s l with ⟨eq, -⟩ | ⟨-, -, ⟨k, c, -, eq, -⟩ | ⟨r, -, eq, -⟩⟩ <;> rw [eq]
  · exact refl s
  · unfold State.takeHead
    exact (modSched s l _).trans (modCtx ..)
  · unfold State.takeResume
    exact (modSched s l _).trans (modCtx ..)

theorem selectIf (was : JobState) : SameStationSide s (s.selectIf was l) := by
  unfold State.selectIf
  split
  · exact select s l
  · exact refl s

theorem joinTail : SameStationSide s (s.joinTail c) := by
  unfold State.joinTail
  exact (modSched s _ _).trans (modCtx ..)

theorem admitJob (cls : ClassId) (tag : Tag) (ds : List Descriptor) : SameStationSide s (s.admitJob c l cls tag ds) := by
  unfold State.admitJob
  refine SameStationSide.trans ?_ (joinTail _ c)
  exact of_lanes rfl

theorem vacate : SameStationSide s (s.vacate l c) := by
  unfold State.vacate
  exact (modSched s l _).trans (modCtx ..)

theorem splice : SameStationSide s (s.splice l c) := by
  unfold State.splice
  refine SameStationSide.trans ?_ (modCtx ..)
  split
  · exact modSched s l _
  · split
    · exact modCtx ..
    · exact refl s

theorem withdraw : SameStationSide s (s.withdraw c) := by
  rcases withdraw_cases s c with ⟨-, eq⟩ | ⟨-, eq⟩ | ⟨-, eq⟩ | eq <;> rw [eq]
  · unfold State.unqueue
    exact modSched s _ _
  · exact vacate s _ c
  · exact splice s _ c
  · exact refl s

theorem evalBoundary : SameStationSide s (s.evalBoundary l) := by
  rcases evalBoundary_cases s l with eq | ⟨c, -, -, ⟨-, eq⟩ | ⟨-, k, h, -, -, eq⟩⟩ <;> rw [eq]
  · exact refl s
  · rw [suspendAtBoundary_eq]
    exact (modSched s l _).trans ((modCtx ..).trans ((post ..).trans (select _ l)))
  · unfold State.preempt
    exact (modCtx ..).trans ((modSched _ l _).trans (modCtx ..))

theorem advance (last : Bool) : SameStationSide s (s.advance l c last) := by
  rw [advance_eq]
  split
  · split
    · exact (modCtx ..).trans (evalBoundary _ l)
    · exact (modCtx ..).trans ((vacate _ l c).trans (select _ l))
  · exact modCtx ..

theorem endJobs (goes : Context → Bool) (reason : EndReason) : SameStationSide s (s.endJobs l goes reason) := by
  unfold State.endJobs
  generalize allCtxs = cs
  induction cs generalizing s with
  | nil => exact refl s
  | cons c cs ih =>
    rw [List.foldl_cons]
    refine SameStationSide.trans ?_ (ih _)
    dsimp only
    split
    · exact (withdraw s c).trans (of_lanes (freeCtx_lanes ..))
    · exact refl s

end SameStationSide

/-! ### The laws of one lane (R85, R106, R113) -/

/-- The settings lie in their ranges (R88). -/
def ConfigLaw (cfg : LaneConfig) : Prop :=
  1 ≤ cfg.ackTimeout ∧ cfg.ackTimeout ≤ 255 ∧ 1 ≤ cfg.retryLimit ∧ cfg.retryLimit ≤ 7 ∧ cfg.holdLimit ≤ 60 ∧
  (cfg.payloadSize = 64 ∨ cfg.payloadSize = 128 ∨ cfg.payloadSize = 256 ∨ cfg.payloadSize = 512)

theorem settingsLaw_iff {x : Lane} : SettingsLaw x ↔ ConfigLaw x.ctl.config ∧ x.tx.retry ≤ x.ctl.config.retryLimit ∧
    (x.ctl.state ≠ .up → x.ctl.state ≠ .held → x.tx.retry = 0) ∧ x.ctl.probeCount ≤ 16 ∧ x.tx.retxTotal ≤ 65535 := by
  simp only [SettingsLaw, ConfigLaw, and_assoc, Config.maxProbes, Config.counterCeiling]

/-- Settings taken from a LANE_CONFIG lie in their ranges (R88). -/
theorem configLaw_of_field {timeout retries hold policy : Byte} {payload : Word16} {cfg : LaneConfig}
    (h : configField timeout retries hold payload policy = some cfg) : ConfigLaw cfg := by
  unfold configField at h
  split at h
  · next ranges =>
    obtain ⟨p, -, rfl⟩ := Option.map_eq_some_iff.mp h
    obtain ⟨low, retryLow, retryHigh, holdHigh, size⟩ := ranges
    exact ⟨low, Nat.le_of_lt_succ timeout.isLt, retryLow, retryHigh, holdHigh, size⟩
  · cases h

/-- The lane states in which frames may be in flight (R44, R106). -/
theorem selects_iff {st : LaneState} : selects st = true ↔ st = .up ∨ st = .held := by cases st <;> simp [selects]

section
variable {x : Lane}

/-- With nothing in flight, window and numbering ask for the window's range alone (R92, R106). -/
theorem windowLaw_empty (empty : x.tx.inFlight = []) (window : x.ctl.window ≤ Config.maxWindow) : WindowLaw x := by
  simp [WindowLaw, empty, sequencedTo, window]

/-- The ack timer runs exactly in UP with frames in flight (R113). -/
theorem LaneLaw.ackTimer_iff (h : LaneLaw x) :
    x.tx.ackTimer.isSome = true ↔ x.ctl.state = .up ∧ x.tx.inFlight ≠ [] := by
  obtain ⟨-, ⟨-, -, ack⟩, -⟩ := h
  exact ack

/-- What a lane that is neither UP nor HELD has left of a transmission (R103, R106, R113). -/
theorem LaneLaw.still (h : LaneLaw x) (closed : selects x.ctl.state = false) :
    x.tx.inFlight = [] ∧ x.tx.ackTimer = none ∧ x.tx.retry = 0 := by
  obtain ⟨⟨-, -, -, empty⟩, ⟨-, -, ack⟩, ⟨-, -, -, -, -, -, -, retry, -⟩, -⟩ := h
  have notUp : x.ctl.state ≠ .up := fun up => by simp [up, selects] at closed
  have notHeld : x.ctl.state ≠ .held := fun held => by simp [held, selects] at closed
  refine ⟨empty notUp notHeld, ?_, retry notUp notHeld⟩
  exact Option.not_isSome_iff_eq_none.mp fun running => notUp (ack.mp running).1

/-- A lane with nothing in flight, no retry and no ack timer is lawful when its other timers, settings and returns are. -/
theorem laneLaw_still (still : x.tx.inFlight = [] ∧ x.tx.ackTimer = none ∧ x.tx.retry = 0)
    (window : x.ctl.window ≤ Config.maxWindow) (probe : x.ctl.probeTimer.isSome = true ↔ x.ctl.state = .syncing)
    (hold : x.ctl.holdTimer.isSome = true → x.ctl.state = .held) (config : ConfigLaw x.ctl.config)
    (probes : x.ctl.probeCount ≤ 16) (total : x.tx.retxTotal ≤ 65535) (returns : ReturnLaw x) : LaneLaw x := by
  obtain ⟨empty, ack, retry⟩ := still
  refine ⟨windowLaw_empty empty window, ⟨probe, hold, ?_⟩,
    settingsLaw_iff.mpr ⟨config, ?_, fun _ _ => retry, probes, total⟩, returns⟩
  · simp [ack, empty]
  · omega

/-- The lane begins a synchronisation (R90). -/
theorem LaneLaw.opens (h : LaneLaw x) (closed : x.ctl.state = .down ∨ x.ctl.state = .fault) : LaneLaw { x with
    ctl := { x.ctl with state := .syncing, probeCount := 1, probeTimer := some Config.probeInterval } } := by
  have still := h.still (by rcases closed with eq | eq <;> rw [eq] <;> rfl)
  obtain ⟨⟨-, window, -⟩, ⟨-, hold, -⟩, settings, returns⟩ := h
  obtain ⟨config, -, -, -, total⟩ := settingsLaw_iff.mp settings
  refine laneLaw_still still window (by simp) (fun running => ?_) config (by simp) total returns
  rcases closed with eq | eq <;> simp [hold running] at eq

/-- The settings of a closed lane are replaced (R88). -/
theorem LaneLaw.configured (h : LaneLaw x) (closed : x.ctl.state = .down ∨ x.ctl.state = .fault) {cfg : LaneConfig}
    (ranges : ConfigLaw cfg) : LaneLaw { x with ctl := { x.ctl with config := cfg } } := by
  have still := h.still (by rcases closed with eq | eq <;> rw [eq] <;> rfl)
  obtain ⟨⟨-, window, -⟩, ⟨probe, hold, -⟩, settings, returns⟩ := h
  obtain ⟨-, -, -, probes, total⟩ := settingsLaw_iff.mp settings
  exact laneLaw_still still window probe hold ranges probes total returns

/-- One PROBE more (R91). -/
theorem LaneLaw.probes (h : LaneLaw x) (syncing : x.ctl.state = .syncing) (below : x.ctl.probeCount < 16) : LaneLaw { x with
    ctl := { x.ctl with probeCount := x.ctl.probeCount + 1, probeTimer := some Config.probeInterval } } := by
  have still := h.still (by rw [syncing]; rfl)
  obtain ⟨⟨-, window, -⟩, ⟨-, hold, -⟩, settings, returns⟩ := h
  obtain ⟨config, -, -, -, total⟩ := settingsLaw_iff.mp settings
  exact laneLaw_still still window (by simp [syncing]) hold config below total returns

/-- A HELLO ends a synchronisation (R92). -/
theorem LaneLaw.synchronised (h : LaneLaw x) (syncing : x.ctl.state = .syncing) {window : Nat} (station : Word16)
    (range : window ≤ Config.maxWindow) : LaneLaw { x with
      ctl := { x.ctl with state := .up, window := window, stationId := station, probeTimer := none }
      tx := { x.tx with nextSeq := 0 } } := by
  have still := h.still (by rw [syncing]; rfl)
  obtain ⟨-, ⟨-, hold, -⟩, settings, returns⟩ := h
  obtain ⟨config, -, -, probes, total⟩ := settingsLaw_iff.mp settings
  refine laneLaw_still still range (by simp) (fun running => ?_) config probes total returns
  simp [hold running] at syncing

/-- A station restart, once the jobs have ended (R137, R139). -/
theorem LaneLaw.restarted (h : LaneLaw x) (open_ : selects x.ctl.state = true) {window : Nat} (station : Word16)
    (range : window ≤ Config.maxWindow) : LaneLaw { x with
      ctl := { x.ctl with state := .up, window := window, stationId := station, holdTimer := none }
      tx := ⟨[], 0, [], none, 0, none, x.tx.retxTotal⟩ } := by
  obtain ⟨-, ⟨probe, -, -⟩, settings, returns⟩ := h
  obtain ⟨config, -, -, probes, total⟩ := settingsLaw_iff.mp settings
  refine laneLaw_still ⟨rfl, rfl, rfl⟩ range ?_ (by simp) config probes total returns
  have stopped : x.ctl.probeTimer.isSome ≠ true := fun running => by simp [probe.mp running, selects] at open_
  simpa using stopped

/-- LANE_RESET, once the jobs have ended (R101). -/
theorem LaneLaw.stopped (h : LaneLaw x) : LaneLaw { x with
    ctl := { x.ctl with state := .down, window := 0, stationId := 0, probeCount := 0, probeTimer := none, holdTimer := none }
    tx := Transmitter.initial } := by
  obtain ⟨-, -, settings, returns⟩ := h
  obtain ⟨config, -⟩ := settingsLaw_iff.mp settings
  exact laneLaw_still ⟨rfl, rfl, rfl⟩ (Nat.zero_le _) (by simp) (by simp) config (Nat.zero_le _) (Nat.zero_le _) returns

/-- An entry into FAULT, whatever the retry count has become (R99, R129). -/
theorem LaneLaw.faulted (h : LaneLaw x) (why : FaultCause) (back : List CancelEntry) : LaneLaw { x with
    ctl := { x.ctl with state := .fault, lastFault := why, probeTimer := none, holdTimer := none }
    tx := { x.tx with inFlight := [], cancels := back, ackTimer := none, retry := 0, deferred := none } } := by
  obtain ⟨⟨-, window, -⟩, -, settings, returns⟩ := h
  obtain ⟨config, -, -, probes, total⟩ := settingsLaw_iff.mp settings
  exact laneLaw_still ⟨rfl, rfl, rfl⟩ window (by simp) (by simp) config probes total returns

/-! ### Frames in flight (R106, R113) -/

/-- A frame more takes the next number (R107). -/
theorem sequencedTo_append {next : BitVec 4} {es : List InFlight} (h : sequencedTo next es = true) (c : CtxId)
    (what : SentFrame) : sequencedTo (next + 1) (es ++ [⟨next, c, what⟩]) = true := by
  induction es with
  | nil => simp [sequencedTo]
  | cons e es ih =>
    simp only [sequencedTo, Bool.and_eq_true, beq_iff_eq, List.cons_append, List.length_append, List.length_singleton]
      at h ⊢
    obtain ⟨number, rest⟩ := h
    refine ⟨?_, ih rest⟩
    rw [← number, BitVec.ofNat_add, BitVec.add_assoc]
    rfl

/-- The numbers of what stands behind do not depend on what has been acknowledged (R115). -/
theorem sequencedTo_suffix {next : BitVec 4} {removed rest : List InFlight}
    (h : sequencedTo next (removed ++ rest) = true) : sequencedTo next rest = true := by
  induction removed with
  | nil => exact h
  | cons e es ih =>
    simp only [sequencedTo, List.cons_append, Bool.and_eq_true] at h
    exact ih h.2

/-- A cut with room in the window (R107, R112, R113). -/
theorem LaneLaw.launches (h : LaneLaw x) (up : x.ctl.state = .up) (room : x.tx.inFlight.length < x.ctl.window) (c : CtxId)
    (what : SentFrame) : LaneLaw { x with tx := { x.tx with
      inFlight := x.tx.inFlight ++ [⟨x.tx.nextSeq, c, what⟩]
      nextSeq := x.tx.nextSeq + 1
      ackTimer := (if x.tx.inFlight = [] then some x.ctl.config.ackTimeout else x.tx.ackTimer) } } := by
  obtain ⟨⟨-, window, numbers, -⟩, ⟨probe, hold, ack⟩, settings, returns⟩ := h
  refine ⟨⟨?_, window, sequencedTo_append numbers c what, fun closed => absurd up closed⟩, ⟨probe, hold, ?_⟩, settings,
    returns⟩
  · simpa using room
  · by_cases empty : x.tx.inFlight = []
    · simp [empty, up]
    · simp [empty, up, ack]

/-- The ack timer of a lane with frames in flight is started (R113). -/
theorem LaneLaw.timed (h : LaneLaw x) (up : x.ctl.state = .up) (busy : x.tx.inFlight ≠ []) (timeout : Nat) :
    LaneLaw { x with tx := { x.tx with ackTimer := some timeout } } := by
  obtain ⟨window, ⟨probe, hold, -⟩, settings, returns⟩ := h
  exact ⟨window, ⟨probe, hold, by simp [up, busy]⟩, settings, returns⟩

/-- One retry more, below the limit (R123). -/
theorem LaneLaw.retries (h : LaneLaw x) (open_ : selects x.ctl.state = true)
    (below : x.tx.retry + 1 ≤ x.ctl.config.retryLimit) : LaneLaw { x with tx := { x.tx with retry := x.tx.retry + 1 } } := by
  obtain ⟨window, timers, settings, returns⟩ := h
  obtain ⟨config, -, -, probes, total⟩ := settingsLaw_iff.mp settings
  exact ⟨window, timers, settingsLaw_iff.mpr ⟨config, below, fun notUp notHeld => (notHeld
    ((selects_iff.mp open_).resolve_left notUp)).elim, probes, total⟩, returns⟩

/-- No law of a lane speaks of its cancel list or its deferred point. -/
theorem LaneLaw.lists (h : LaneLaw x) (cancels : List CancelEntry) (point : Option (BitVec 4)) :
    LaneLaw { x with tx := { x.tx with cancels := cancels, deferred := point } } := h

/-- The retransmission total holds at 65535 (R105). -/
theorem LaneLaw.counts (h : LaneLaw x) {total : Nat} (holds : total ≤ 65535) :
    LaneLaw { x with tx := { x.tx with retxTotal := total } } := by
  obtain ⟨window, timers, settings, returns⟩ := h
  obtain ⟨config, retry, idle, probes, -⟩ := settingsLaw_iff.mp settings
  exact ⟨window, timers, settingsLaw_iff.mpr ⟨config, retry, idle, probes, holds⟩, returns⟩

/-- An ACK: the entries behind the one it names are left, and the ack timer goes by them in UP (R115). -/
theorem LaneLaw.acknowledges (h : LaneLaw x) (open_ : selects x.ctl.state = true) {removed rest : List InFlight}
    (split : x.tx.inFlight = removed ++ rest) (point : Option (BitVec 4)) : LaneLaw { x with tx := { x.tx with
      inFlight := rest
      retry := 0
      deferred := point
      ackTimer := (if x.ctl.state = .up then (if rest = [] then none else some x.ctl.config.ackTimeout)
        else x.tx.ackTimer) } } := by
  obtain ⟨⟨length, window, numbers, -⟩, ⟨probe, hold, ack⟩, settings, returns⟩ := h
  obtain ⟨config, -, -, probes, total⟩ := settingsLaw_iff.mp settings
  rw [split] at length numbers
  have shorter : rest.length ≤ x.ctl.window := by simp only [List.length_append] at length; omega
  refine ⟨⟨shorter, window, sequencedTo_suffix numbers, fun notUp notHeld => (notHeld
    ((selects_iff.mp open_).resolve_left notUp)).elim⟩, ⟨probe, hold, ?_⟩,
    settingsLaw_iff.mpr ⟨config, Nat.zero_le _, fun _ _ => rfl, probes, total⟩, returns⟩
  by_cases up : x.ctl.state = .up
  · by_cases empty : rest = [] <;> simp [up, empty]
  · simp [up, ack]

/-- A hold begins (R95). -/
theorem LaneLaw.holds (h : LaneLaw x) (up : x.ctl.state = .up) (timer : Option Nat) : LaneLaw { x with
    tx := { x.tx with ackTimer := none }, ctl := { x.ctl with state := .held, holdTimer := timer } } := by
  obtain ⟨⟨length, window, numbers, -⟩, ⟨probe, -, -⟩, settings, returns⟩ := h
  obtain ⟨config, retry, -, probes, total⟩ := settingsLaw_iff.mp settings
  exact ⟨⟨length, window, numbers, fun _ notHeld => absurd rfl notHeld⟩,
    ⟨by simpa [up] using probe, fun _ => rfl, by simp⟩,
    settingsLaw_iff.mpr ⟨config, retry, fun _ notHeld => absurd rfl notHeld, probes, total⟩, returns⟩

/-- A hold ends; the ack timer runs again when frames are in flight (R97). -/
theorem LaneLaw.releases (h : LaneLaw x) (held : x.ctl.state = .held) {timer : Option Nat}
    (timed : timer.isSome = true ↔ x.tx.inFlight ≠ []) : LaneLaw { x with
      tx := { x.tx with ackTimer := timer }, ctl := { x.ctl with state := .up, holdTimer := none } } := by
  obtain ⟨⟨length, window, numbers, -⟩, ⟨probe, -, -⟩, settings, returns⟩ := h
  obtain ⟨config, retry, -, probes, total⟩ := settingsLaw_iff.mp settings
  exact ⟨⟨length, window, numbers, fun notUp => absurd rfl notUp⟩,
    ⟨by simpa [held] using probe, by simp, by simp [timed]⟩,
    settingsLaw_iff.mpr ⟨config, retry, fun notUp => absurd rfl notUp, probes, total⟩, returns⟩

/-- A return more, with room for it (R145, R148). -/
theorem LaneLaw.returned (h : LaneLaw x) (room : x.returns.length < Config.returnCapacity) {r : Return}
    (fits : r.body.length ≤ Config.maxReplyBody) : LaneLaw { x with returns := x.returns ++ [r] } := by
  obtain ⟨window, timers, settings, -, bodies⟩ := h
  refine ⟨window, timers, settings, by simpa using room, fun q hq => ?_⟩
  rcases List.mem_append.mp hq with old | new
  · exact bodies q old
  · rwa [List.mem_singleton.mp new]

end

/-! ### The laws of all lanes -/

/-- Every lane meets its laws. -/
def LanesLawful (s : State) : Prop := ∀ l, LaneLaw (s.lane l)

section
variable {s t : State} {l : LaneId}

theorem LanesLawful.same (h : LanesLawful s) (same : SameStationSide s t) : LanesLawful t := fun l =>
  (h l).congr (same.tx l) (same.ctl l) (same.returns l)

theorem LanesLawful.of_lane (h : LanesLawful s) (others : ∀ k, l ≠ k → t.lane k = s.lane k) (own : LaneLaw (t.lane l)) :
    LanesLawful t := fun k => by
  by_cases hk : l = k
  · exact hk ▸ own
  · rw [others k hk]
    exact h k

theorem LanesLawful.modLane (h : LanesLawful s) {f : Lane → Lane} (own : LaneLaw (f (s.lane l))) :
    LanesLawful (s.modLane l f) :=
  h.of_lane (fun _ hk => lane_modLane_ne s f hk) (by rwa [lane_modLane_same])

theorem LanesLawful.post (h : LanesLawful s) (b : NoticeBody) : LanesLawful (s.post b) := h

theorem LanesLawful.modPair (h : LanesLawful s) (f : TxPair → TxPair) : LanesLawful (s.modPair l f) :=
  h.same (.of_alike (.modPair s l f))

theorem LanesLawful.modRcv (h : LanesLawful s) (f : Receiver → Receiver) : LanesLawful (s.modRcv l f) :=
  h.same (.of_alike (.modRcv s l f))

theorem lanesLawful_partReset (s : State) (cause : ResetCause) (straps : BitVec 2) (keep : Bool) :
    LanesLawful (s.partReset cause straps keep) := by
  have reset : LanesLawful State.reset := fun k => by
    rw [reset_lane]
    exact initial_laneLaw
  exact reset.same (.of_lanes rfl)

/-! ### Requests (chapters 1, 4 and 5) -/

theorem LanesLawful.abortStarted (h : LanesLawful s) (c : CtxId) : LanesLawful (s.abortStarted c) := by
  unfold State.abortStarted
  have aborting := h.same ((SameStationSide.withdraw s c).trans (.modCtx _ c fun y => { y with state := .aborting }))
  exact LanesLawful.same (aborting.modLane ((aborting _).lists _ _))
    (.selectIf _ _ _)

theorem LanesLawful.openLane (h : LanesLawful s) (closed : (s.lane l).ctl.state = .down ∨ (s.lane l).ctl.state = .fault) :
    LanesLawful (s.openLane l) := by
  unfold State.openLane
  exact LanesLawful.post (LanesLawful.modPair (h.modLane ((h l).opens closed)) _) _

theorem LanesLawful.resetLane (h : LanesLawful s) (l : LaneId) : LanesLawful (s.resetLane l) := by
  have ended := SameStationSide.endJobs (s.stopping l) l (fun _ => true) .laneReset
  rw [resetLane_eq]
  intro k
  by_cases hk : l = k
  · subst hk
    rw [lane_postLaneState, lane_stopped_same]
    refine (h l).stopped.congr rfl ?_ ?_
    · rw [ended.ctl, lane_stopping_same]
    · rw [ended.returns, lane_stopping_same]
  · rw [lane_postLaneState, lane_stopped_ne _ hk]
    refine (h k).congr ?_ ?_ ?_
    · rw [ended.tx, lane_stopping_ne _ hk]
    · rw [ended.ctl, lane_stopping_ne _ hk]
    · rw [ended.returns, lane_stopping_ne _ hk]

theorem LanesLawful.fetch (h : LanesLawful s) {r : Return} {rs : List Return} (oldest : (s.lane l).returns = r :: rs) :
    LanesLawful (s.modLane l fun x => { x with returns := rs }) := by
  obtain ⟨window, timers, settings, length, bodies⟩ := h l
  rw [oldest] at length bodies
  exact h.modLane ⟨window, timers, settings, Nat.le_of_succ_le length, fun q hq => bodies q (List.mem_cons_of_mem _ hq)⟩

/-! ### Station frames (chapters 5 and 8) -/

theorem LanesLawful.storeReply (h : LanesLawful s) (l : LaneId) (bit : Bool) {r : Return}
    (fits : r.body.length ≤ Config.maxReplyBody) : LanesLawful (s.storeReply l bit r) := by
  unfold State.storeReply State.answerStation
  dsimp only
  split
  · exact h.modPair _
  · split
    · next room =>
      have stored := h.modLane (f := fun y => { y with returns := y.returns ++ [r] }) ((h l).returned room fits)
      have kept := (stored.modRcv (l := l) fun y => { y with lastBit := some bit }).modPair (l := l) fun p =>
        { p with answers := p.answers ++ [.rack bit] }
      split
      · exact kept.post _
      · exact kept
    · exact h.modPair _

theorem LanesLawful.takeReply (h : LanesLawful s) (l : LaneId) (bit : Byte) {r : Return}
    (fits : r.body.length ≤ Config.maxReplyBody) : LanesLawful (s.takeReply l bit r) := by
  unfold State.takeReply
  split
  · exact h.storeReply l _ fits
  · exact h.storeReply l _ fits
  all_goals exact h

theorem LanesLawful.synchronise (h : LanesLawful s) (syncing : (s.lane l).ctl.state = .syncing) {window : Nat}
    (station : Word16) (range : window ≤ Config.maxWindow) : LanesLawful (s.synchronise l window station) := by
  have opened : LanesLawful (s.opened l window station) := by
    rw [opened_eq]
    exact LanesLawful.post (h.modLane (((h l).synchronised syncing station range).congr rfl rfl rfl)) _
  rw [synchronise_eq]
  split
  · exact opened.same (.evalBoundary _ l)
  · exact opened.same (.select _ l)

theorem LanesLawful.stationRestart (h : LanesLawful s) (open_ : selects (s.lane l).ctl.state = true) {window : Nat}
    (station : Word16) (range : window ≤ Config.maxWindow) : LanesLawful (s.stationRestart l window station) := by
  have ended := SameStationSide.endJobs (s.restarting l window station) l (fun x => x.started) .stationRestart
  have restarted : LanesLawful (s.restarted l window station) := fun k => by
    unfold State.restarted
    by_cases hk : l = k
    · subst hk
      rw [lane_postLaneState, lane_modCtl_same]
      refine ((h l).restarted open_ station range).congr ?_ ?_ ?_
      · rw [ended.tx, lane_restarting_same]
      · rw [ended.ctl, lane_restarting_same]
      · rw [ended.returns, lane_restarting_same]
    · rw [lane_postLaneState, lane_modCtl_ne _ _ hk]
      refine (h k).congr ?_ ?_ ?_
      · rw [ended.tx, lane_restarting_ne _ _ _ hk]
      · rw [ended.ctl, lane_restarting_ne _ _ _ hk]
      · rw [ended.returns, lane_restarting_ne _ _ _ hk]
  rw [stationRestart_eq]
  exact restarted.same (.select _ l)

theorem LanesLawful.takeHello (h : LanesLawful s) (l : LaneId) (window : Byte) (station : Word16) :
    LanesLawful (s.takeHello l window station) := by
  rcases takeHello_cases s l window station with eq | ⟨-, range, ⟨syncing, eq⟩ | ⟨open_, eq⟩⟩ <;> rw [eq]
  · exact h
  · exact h.synchronise syncing station range
  · exact h.stationRestart open_ station range

/-- An ACK's changes of the lane: the accounting leaves them (R115). -/
theorem lane_acknowledge_same (removed rest : List InFlight) : (s.acknowledge l removed rest).lane l = { s.lane l with
    tx := { (s.lane l).tx with
      inFlight := rest
      retry := 0
      deferred := deferredAfter (s.lane l).tx.deferred removed rest
      ackTimer := (if (s.lane l).ctl.state = .up then
        (if rest = [] then none else some (s.lane l).ctl.config.ackTimeout) else (s.lane l).tx.ackTimer) }
    pair := ((s.acknowledge l removed rest).lane l).pair } := by
  unfold State.acknowledge
  simp only [lane_modPair_same, lane_modTx_same, lane_congr (accounts_lanes removed), beq_iff_eq, List.isEmpty_iff]

theorem lane_acknowledge_ne {k : LaneId} (hk : l ≠ k) (removed rest : List InFlight) :
    (s.acknowledge l removed rest).lane k = s.lane k := by
  unfold State.acknowledge
  simp only [lane_modPair_ne _ _ hk, lane_modTx_ne _ _ hk, lane_congr (accounts_lanes removed)]

theorem LanesLawful.takeAck (h : LanesLawful s) (l : LaneId) (n : Byte) : LanesLawful (s.takeAck l n) := by
  rcases takeAck_cases s l n with eq | ⟨removed, rest, open_, split, eq⟩ <;> rw [eq]
  · exact h
  · refine h.of_lane (fun k hk => lane_acknowledge_ne hk removed rest) ?_
    rw [lane_acknowledge_same]
    exact ((h l).acknowledges open_ (splitThrough_some split).1 _).congr rfl rfl rfl

theorem LanesLawful.takeHold (h : LanesLawful s) (l : LaneId) : LanesLawful (s.takeHold l) := by
  cases hs : (s.lane l).ctl.state with
  | up =>
    rw [takeHold_up hs]
    exact LanesLawful.post (h.modLane ((h l).holds hs _)) _
  | down | syncing | held | fault => rwa [takeHold_ignored (by simp [hs])]

/-! ### Retransmission and FAULT (R99, R113, R122, R123) -/

/-- A lane enters FAULT, its retry count as it may have become (R123, R129). -/
theorem LanesLawful.enterFault (h : LanesLawful s) (others : ∀ k, l ≠ k → t.lane k = s.lane k)
    (own : ∃ n, t.lane l = { s.lane l with tx := { (s.lane l).tx with retry := n } }) (why : FaultCause)
    (cause : LaneCause) : LanesLawful (t.enterFault l why cause) := by
  obtain ⟨n, own⟩ := own
  refine h.of_lane (fun k hk => by rw [lane_enterFault_ne t l why cause hk, others k hk]) ?_
  rw [lane_enterFault_same, own]
  exact ((h l).faulted why _).congr rfl rfl rfl

theorem LanesLawful.faults (h : LanesLawful s) (l : LaneId) (why : FaultCause) (cause : LaneCause) :
    LanesLawful (s.enterFault l why cause) := h.enterFault (fun _ _ => rfl) ⟨_, rfl⟩ why cause

theorem LanesLawful.retryOr (h : LanesLawful s) (open_ : selects (s.lane l).ctl.state = true)
    {again : State → Except Fault State} (ok : s.retryOr l again = .ok t)
    (kept : LanesLawful (s.modTx l fun x => { x with retry := x.retry + 1 }) →
      again (s.modTx l fun x => { x with retry := x.retry + 1 }) = .ok t → LanesLawful t) : LanesLawful t := by
  rcases retryOr_ok ok with ⟨-, rfl⟩ | ⟨below, ok⟩
  · exact h.enterFault (fun k hk => lane_modTx_ne _ _ hk) ⟨_, lane_modTx_same ..⟩ _ _
  · exact kept (h.modLane ((h l).retries open_ below)) ok

theorem LanesLawful.retransmit (h : LanesLawful s) {es : List InFlight} (ok : s.retransmit l es = .ok t) :
    LanesLawful t := by
  obtain ⟨fs, -, rfl⟩ := retransmit_ok ok
  refine LanesLawful.modLane (h.modPair _) ?_
  exact (LanesLawful.modPair h _ l).counts (Nat.min_le_left _ _)

/-- A retransmission leaves state, in-flight list and settings of its lane (R122). -/
theorem retransmit_leaves {es : List InFlight} (ok : s.retransmit l es = .ok t) :
    (t.lane l).ctl = (s.lane l).ctl ∧ (t.lane l).tx.inFlight = (s.lane l).tx.inFlight := by
  obtain ⟨fs, -, rfl⟩ := retransmit_ok ok
  simp

/-- A retransmission in UP of some entries of a list that is not empty (R113, R122). -/
theorem LanesLawful.retransmitTimed (h : LanesLawful s) (up : (s.lane l).ctl.state = .up)
    (busy : (s.lane l).tx.inFlight ≠ []) {es : List InFlight} (ok : (match s.retransmit l es with
      | .error e => .error e
      | .ok u => .ok (u.startAckTimer l)) = Except.ok t) : LanesLawful t := by
  split at ok
  · cases ok
  · next u sent =>
    cases ok
    obtain ⟨ctl, flight⟩ := retransmit_leaves sent
    have again := h.retransmit sent
    exact again.modLane ((again l).timed (by rwa [ctl]) (by rwa [flight]) _)

theorem LanesLawful.takeNak (h : LanesLawful s) {n : Byte} (ok : s.takeNak l n = .ok t) : LanesLawful t := by
  unfold State.takeNak at ok
  split at ok
  · next named =>
    have busy : (s.lane l).tx.inFlight ≠ [] := fun empty => by simp [empty] at named
    split at ok
    · next up =>
      exact h.retryOr (by rw [up]; rfl) ok fun kept ok => kept.retransmitTimed (by simpa using up) (by simpa using busy) ok
    · next held =>
      refine h.retryOr (by rw [held]; rfl) ok fun kept ok => ?_
      cases ok
      exact kept.modLane ((kept l).lists _ _)
    all_goals cases ok; exact h
  · cases ok
    exact h

theorem LanesLawful.ackExpiry (h : LanesLawful s) (ok : s.ackExpiry l = .ok t) : LanesLawful t := by
  unfold State.ackExpiry at ok
  split at ok
  · next up running =>
    have busy : (s.lane l).tx.inFlight ≠ [] := ((h l).ackTimer_iff.mp (by rw [running]; rfl)).2
    exact h.retryOr (by rw [up]; rfl) ok fun kept ok => kept.retransmitTimed (by simpa using up) (by simpa using busy) ok
  · cases ok
    exact h

/-- A hold's end, with the ack timer as it then stands (R97). -/
theorem LanesLawful.released (h : LanesLawful s) (held : (s.lane l).ctl.state = .held) :
    ((s.lane l).tx.inFlight = [] → LanesLawful (s.released l)) ∧
      ((s.lane l).tx.inFlight ≠ [] → LanesLawful (s.readied l)) := by
  refine ⟨fun empty => ?_, fun busy => ?_⟩
  · have stopped : (s.lane l).tx.ackTimer.isSome = true ↔ (s.lane l).tx.inFlight ≠ [] := by
      rw [(h l).ackTimer_iff]
      simp [held, empty]
    exact LanesLawful.post (h.modLane ((h l).releases held stopped)) _
  · rw [readied_eq]
    unfold State.released
    simp only [State.modTx, modLane_post, State.modCtl, modLane_modLane]
    exact LanesLawful.post (h.modLane ((h l).releases held (by simp [busy]))) _

theorem LanesLawful.takeReady (h : LanesLawful s) (ok : s.takeReady l = .ok t) : LanesLawful t := by
  cases hs : (s.lane l).ctl.state with
  | held =>
    obtain ⟨idle, timed⟩ := h.released hs
    by_cases empty : (s.lane l).tx.inFlight = []
    · rw [takeReady_empty hs empty] at ok
      cases ok
      exact idle empty
    · rw [takeReady_busy hs empty] at ok
      cases point : (s.lane l).tx.deferred with
      | none =>
        rw [point] at ok
        cases ok
        exact timed empty
      | some d =>
        rw [point, Option.elim_some] at ok
        cases sent : (s.readied l).retransmit l (fromSeq (s.lane l).tx.inFlight d) with
        | error fault =>
          rw [sent] at ok
          cases ok
        | ok v =>
          rw [sent] at ok
          cases ok
          have lawful := (timed empty).retransmit sent
          exact lawful.modLane ((lawful l).lists _ _)
  | down | syncing | up | fault =>
    rw [takeReady_ignored (by simp [hs])] at ok
    cases ok
    exact h

/-! ### Timers and cuts (R91, R98, R107 to R112) -/

theorem LanesLawful.probeExpiry (h : LanesLawful s) (l : LaneId) : LanesLawful (s.probeExpiry l) := by
  unfold State.probeExpiry
  split
  · next syncing _ =>
    split
    · next below =>
      refine LanesLawful.modLane (h.modPair _) ?_
      exact (LanesLawful.modPair h _ l).probes (by rwa [lane_modPair_same]) (by rwa [lane_modPair_same])
    · exact h.faults l _ _
  · exact h

theorem LanesLawful.holdExpiry (h : LanesLawful s) (l : LaneId) : LanesLawful (s.holdExpiry l) := by
  unfold State.holdExpiry
  split
  · exact h.faults l _ _
  · exact h

theorem LanesLawful.launch (h : LanesLawful s) (can : s.canCut l = true) (c : CtxId) (what : SentFrame) (frame : LaneFrame) :
    LanesLawful (s.launch l c what frame) := by
  obtain ⟨up, room⟩ := canCut_iff.mp can
  rw [launch_eq]
  exact h.modLane (((h l).launches up room c what).congr rfl rfl rfl)

theorem LanesLawful.dataCut (h : LanesLawful s) (ok : s.dataCut l = .ok t) : LanesLawful t := by
  by_cases can : s.canCut l = true
  · rcases dataCut_ok ok with rfl | ⟨c, k, f, flags, frame, last, -, rfl⟩
    · exact h
    · exact (h.launch can c _ frame).same (.advance _ l c last)
  · rw [State.dataCut, if_neg (by simp [can])] at ok
    cases ok
    exact h

theorem LanesLawful.cancelCut (h : LanesLawful s) (l : LaneId) : LanesLawful (s.cancelCut l) := by
  unfold State.cancelCut
  split
  · next can =>
    split
    · next e more _ =>
      unfold State.cutCancel
      have taken : LanesLawful (s.modTx l fun t => { t with cancels := t.cancels.tail }) :=
        h.modLane ((h l).lists _ _)
      exact taken.launch (by simpa [State.canCut] using can) _ _ _
    · exact h
  · exact h

/-! ### Every event -/

theorem LanesLawful.event (h : LanesLawful s) (event : Event s t) : LanesLawful t := by
  cases event with
  | quiet => exact h
  | partReset cause straps keep => exact lanesLawful_partReset s cause straps keep
  | submit c l cls tag ds _ _ _ _ _ _ => exact h.same ((SameStationSide.admitJob s l c cls tag ds).trans (.select _ l))
  | suspend c _ => exact h.same ((SameStationSide.withdraw s c).trans (.modCtx ..))
  | setPending c b _ => exact h.same (.modCtx ..)
  | resume c _ => exact h.same ((SameStationSide.joinTail s c).trans (.select _ _))
  | abortUnstarted c _ _ _ =>
    exact h.same ((SameStationSide.withdraw s c).trans ((SameStationSide.of_lanes (freeCtx_lanes ..)).trans (.selectIf _ _ _)))
  | abortStarted c _ _ _ => exact h.abortStarted c
  | configure l cfg closed ranges =>
    obtain ⟨timeout, retries, hold, payload, policy, field⟩ := ranges
    exact h.modLane ((h l).configured closed (configLaw_of_field field))
  | openLane l closed => exact h.openLane closed
  | resetLane l => exact h.resetLane l
  | fetch l r rs oldest => exact h.fetch oldest
  | reply l bit r fits => exact h.takeReply l bit fits
  | hello l window station => exact h.takeHello l window station
  | ack l n => exact h.takeAck l n
  | nak l n t ok => exact h.takeNak ok
  | hold l => exact h.takeHold l
  | ready l t ok => exact h.takeReady ok
  | probeExpiry l => exact h.probeExpiry l
  | holdExpiry l => exact h.holdExpiry l
  | ackExpiry l t ok => exact h.ackExpiry ok
  | dataCut l t ok => exact h.dataCut ok
  | cancelCut l => exact h.cancelCut l

end

/-- Settles O56: a step is one event; it changes the station's side of one lane at most, by one of the changes that keep that
lane's laws. -/
theorem stepKeepsTheLaneLaws : Obligations.StepKeepsTheLaneLaws := by
  unfold Obligations.StepKeepsTheLaneLaws
  intro s t h stepped
  exact step_induction (R := fun s t => LanesLawful s → LanesLawful t) (fun alike h => h.same (.of_alike alike))
    (fun first later => later ∘ first) (fun event h => h.event event) stepped h

end Sys2Proof.Machine
end

-- ==== Proofs: Lane requests ====
section
/-! PROOFS. Lane requests: LANE_CONFIG, LANE_OPEN and LANE_STATUS; and the probe timer, the hold timer and the transmit pair
(R82, R86, R88, R90, R91, R98, R103). -/

namespace Sys2Proof.Machine

/-- A request that changes the lanes' own records is answered on the state so changed. -/
theorem takeRequest_acts {s : State} {r : Request} {k : Byte} {perform : State → Answer} {act : State → State}
    {body : List Byte} (h : performs s r) (kind : k = replyKindOf r)
    (performed : perform s.taking = { state := act s.taking, body := body })
    (blind : act s.taking = (act s).withHost s.taking.host) (left : (act s).host = s.host) :
    takeRequest s r k perform = .next ((act s).answered r body) := by
  rw [takeRequest_performs h kind (by rw [performed, blind]; rfl), performed, blind, ← left]
  rfl

/-! ### LANE_CONFIG (R88) -/

theorem policyOfCode_policyCode (p : NotifyPolicy) : policyOfCode (policyCode p) = some p := by cases p <;> rfl

theorem policyOfCode_none {b : Byte} (h : 2 < b.toNat) : policyOfCode b = none := by
  have other : ∀ {c : Byte}, c.toNat ≤ 2 → b ≠ c := by
    rintro c low rfl
    omega
  rw [policyOfCode, if_neg (other (by decide)), if_neg (other (by decide)), if_neg (other (by decide))]

theorem exists_policyCode {b : Byte} (h : b.toNat ≤ 2) : ∃ p, policyCode p = b := by
  have code : b.toNat = 0 ∨ b.toNat = 1 ∨ b.toNat = 2 := by omega
  rcases code with eq | eq | eq
  · exact ⟨.flagged, BitVec.eq_of_toNat_eq eq.symm⟩
  · exact ⟨.all, BitVec.eq_of_toNat_eq eq.symm⟩
  · exact ⟨.none, BitVec.eq_of_toNat_eq eq.symm⟩

section
variable {timeout retries hold policy : Byte} {payload : Word16}

theorem configField_inRange (h : 1 ≤ timeout.toNat ∧ 1 ≤ retries.toNat ∧ retries.toNat ≤ 7 ∧ hold.toNat ≤ 60 ∧
      (payload.toNat = 64 ∨ payload.toNat = 128 ∨ payload.toNat = 256 ∨ payload.toNat = 512)) {p : NotifyPolicy}
    (code : policyCode p = policy) : configField timeout retries hold payload policy =
      some ⟨timeout.toNat, retries.toNat, hold.toNat, payload.toNat, p⟩ := by
  rw [configField, if_pos h, ← code, policyOfCode_policyCode]
  rfl

/-- A setting out of its range, or no policy of the code (R88). -/
theorem configField_outOfRange (h : ¬ (1 ≤ timeout.toNat ∧ 1 ≤ retries.toNat ∧ retries.toNat ≤ 7 ∧ hold.toNat ≤ 60 ∧
      (payload.toNat = 64 ∨ payload.toNat = 128 ∨ payload.toNat = 256 ∨ payload.toNat = 512) ∧ policy.toNat ≤ 2)) :
    configField timeout retries hold payload policy = none := by
  unfold configField
  split
  · next ranges =>
    obtain ⟨timeoutLow, retryLow, retryHigh, holdHigh, size⟩ := ranges
    have above : 2 < policy.toNat := by
      by_contra low
      exact h ⟨timeoutLow, retryLow, retryHigh, holdHigh, size, by omega⟩
    rw [policyOfCode_none above]
    rfl
  · rfl

variable {lane : Byte} {l : LaneId} (s : State)

theorem performLaneConfig_badLength {body : List Byte} (h : body.length ≠ 7) :
    performLaneConfig body s = refuse s .badLength := by
  unfold performLaneConfig
  split
  · exact absurd rfl h
  · rfl

/-- The body of a LANE_CONFIG (R182). -/
def laneConfigBody (lane timeout retries hold : Byte) (payload : Word16) (policy : Byte) : List Byte :=
  [lane, timeout, retries, hold] ++ bytes16 payload ++ [policy]

theorem performLaneConfig_badLane (h : 8 ≤ lane.toNat) :
    performLaneConfig (laneConfigBody lane timeout retries hold payload policy) s = refuse s .badLane := by
  simp only [laneConfigBody, bytes16, List.cons_append, List.nil_append, performLaneConfig, laneField_none h]

theorem performLaneConfig_badValue (h : lane.toNat = l.val)
    (field : configField timeout retries hold payload policy = none) :
    performLaneConfig (laneConfigBody lane timeout retries hold payload policy) s = refuse s .badValue := by
  simp only [laneConfigBody, bytes16, List.cons_append, List.nil_append, performLaneConfig, laneField_some h, le16_bytes16,
    field]

theorem performLaneConfig_wrongState {cfg : LaneConfig} (h : lane.toNat = l.val)
    (field : configField timeout retries hold payload policy = some cfg)
    (running : (s.lane l).ctl.state = .syncing ∨ (s.lane l).ctl.state = .up ∨ (s.lane l).ctl.state = .held) :
    performLaneConfig (laneConfigBody lane timeout retries hold payload policy) s = refuse s .wrongState := by
  simp only [laneConfigBody, bytes16, List.cons_append, List.nil_append, performLaneConfig, laneField_some h, le16_bytes16,
    field]
  rcases running with eq | eq | eq <;> rw [eq]

theorem performLaneConfig_passes {cfg : LaneConfig} (h : lane.toNat = l.val)
    (field : configField timeout retries hold payload policy = some cfg)
    (closed : (s.lane l).ctl.state = .down ∨ (s.lane l).ctl.state = .fault) :
    performLaneConfig (laneConfigBody lane timeout retries hold payload policy) s =
      { state := s.modCtl l fun c => { c with config := cfg }, body := [statusCode .ok] } := by
  simp only [laneConfigBody, bytes16, List.cons_append, List.nil_append, performLaneConfig, laneField_some h, le16_bytes16,
    field]
  rcases closed with eq | eq <;> rw [eq]

end

/-- Settles O29: the four checks in their order, and then one change of the controller. -/
theorem laneConfigReplacesAllSettings : Obligations.LaneConfigReplacesAllSettings := by
  unfold Obligations.LaneConfigReplacesAllSettings
  rintro s seq body r rfl h
  refine ⟨fun length => takeRequest_replies h rfl (performLaneConfig_badLength _ length), ?_⟩
  rintro lane timeout retries hold policy payload rfl
  refine ⟨fun beyond => takeRequest_replies h rfl (performLaneConfig_badLane _ beyond), fun l named => ⟨fun outside => ?_,
    fun inside running => ?_, fun inside closed p code => ?_⟩⟩
  · exact takeRequest_replies h rfl (performLaneConfig_badValue _ named (configField_outOfRange outside))
  · obtain ⟨timeoutLow, retryLow, retryHigh, holdHigh, size, policyHigh⟩ := inside
    obtain ⟨p, code⟩ : ∃ p, policyCode p = policy := exists_policyCode policyHigh
    exact takeRequest_replies h rfl (performLaneConfig_wrongState _ named
      (configField_inRange ⟨timeoutLow, retryLow, retryHigh, holdHigh, size⟩ code) running)
  · obtain ⟨timeoutLow, retryLow, retryHigh, holdHigh, size, -⟩ := inside
    exact takeRequest_acts (act := fun v => v.modCtl l _) h rfl (performLaneConfig_passes s.taking named
      (configField_inRange ⟨timeoutLow, retryLow, retryHigh, holdHigh, size⟩ code) closed) rfl rfl

/-! ### LANE_OPEN (R90) -/

/-- A lane opened, as one change of the lane (R90). -/
theorem openLane_eq (s : State) (l : LaneId) : s.openLane l = (s.modLane l fun x => { x with
    ctl := { x.ctl with state := .syncing, probeCount := 1, probeTimer := some 10 }
    pair := { x.pair with probes := x.pair.probes + 1 } }).post (.laneState l .syncing .opened) := by
  simp only [State.openLane, State.postLaneState, State.modCtl, State.modPair, modLane_modLane, lane_modLane_same]
  rfl

section
variable {lane : Byte} {l : LaneId} (s : State)

theorem performLaneOpen_passes (h : lane.toNat = l.val)
    (closed : (s.lane l).ctl.state = .down ∨ (s.lane l).ctl.state = .fault) :
    performLaneOpen [lane] s = { state := s.openLane l, body := [statusCode .ok] } := by
  rw [performLaneOpen, onLane_lane _ _ h]
  rcases closed with eq | eq <;> rw [eq]

theorem performLaneOpen_wrongState (h : lane.toNat = l.val)
    (running : (s.lane l).ctl.state = .syncing ∨ (s.lane l).ctl.state = .up ∨ (s.lane l).ctl.state = .held) :
    performLaneOpen [lane] s = refuse s .wrongState := by
  rw [performLaneOpen, onLane_lane _ _ h]
  rcases running with eq | eq | eq <;> rw [eq]

end

/-- Settles O30: by the state of the lane. -/
theorem laneOpenBeginsSynchronisation : Obligations.LaneOpenBeginsSynchronisation := by
  unfold Obligations.LaneOpenBeginsSynchronisation
  intro s seq lane l named h
  refine ⟨fun closed => ?_, fun running => takeRequest_replies h rfl (performLaneOpen_wrongState _ named running)⟩
  rw [← openLane_eq]
  exact takeRequest_acts (act := fun v => v.openLane l) h rfl (performLaneOpen_passes s.taking named closed) rfl rfl

/-! ### LANE_STATUS (R103) -/

theorem tagOf_eq (s : State) (o : Option CtxId) : s.tagOf o = match o with
    | none => 0
    | some c => (s.ctx c).tag := by
  cases o <;> rfl

/-- The four queues, URGENT first (R38). -/
theorem ready_toList {α : Type} (v : Vector α 4) : v.toList = [v[0], v[1], v[2], v[3]] := by
  refine List.ext_getElem (by simp) fun i h _ => ?_
  have range : i = 0 ∨ i = 1 ∨ i = 2 ∨ i = 3 := by
    simp at h
    omega
  rcases range with rfl | rfl | rfl | rfl <;> simp

/-- Settles O32: the reply's fields, each in the bytes that carry it. -/
theorem laneStatusReportsTheLane : Obligations.LaneStatusReportsTheLane := by
  unfold Obligations.LaneStatusReportsTheLane
  intro s seq lane l named h x tagOf low high
  refine takeRequest_replies h rfl ?_
  rw [performLaneStatus, onLane_lane _ _ named]
  simp only [laneStatusReply, tagOf_eq, natBytes16, bytes16_eq, natByte, ready_toList]
  rfl

/-! ### Timers (R91, R98) -/

section
variable {s : State} {l : LaneId}

theorem probeExpiry_none (h : (s.lane l).ctl.state ≠ .syncing ∨ (s.lane l).ctl.probeTimer = none) : s.probeExpiry l = s := by
  unfold State.probeExpiry
  split
  · next syncing running => simp [syncing, running] at h
  · rfl

theorem probeExpiry_running (syncing : (s.lane l).ctl.state = .syncing) (running : (s.lane l).ctl.probeTimer ≠ none) :
    s.probeExpiry l = if (s.lane l).ctl.probeCount < 16 then s.modLane l fun x => { x with
        ctl := { x.ctl with probeCount := x.ctl.probeCount + 1, probeTimer := some 10 }
        pair := { x.pair with probes := x.pair.probes + 1 } }
      else s.enterFault l .noStation .noStation := by
  obtain ⟨n, running⟩ := Option.ne_none_iff_exists'.mp running
  unfold State.probeExpiry
  rw [syncing, running]
  simp only [State.modPair, State.modCtl, modLane_modLane]
  rfl

theorem holdExpiry_none (h : (s.lane l).ctl.state ≠ .held ∨ (s.lane l).ctl.holdTimer = none) : s.holdExpiry l = s := by
  unfold State.holdExpiry
  split
  · next held running => simp [held, running] at h
  · rfl

theorem holdExpiry_running (held : (s.lane l).ctl.state = .held) (running : (s.lane l).ctl.holdTimer ≠ none) :
    s.holdExpiry l = s.enterFault l .holdLimit .holdLimit := by
  obtain ⟨n, running⟩ := Option.ne_none_iff_exists'.mp running
  unfold State.holdExpiry
  rw [held, running]

end

/-- Settles O48: by the lane's state, the timer and the count of PROBEs. -/
theorem probeAndHoldTimersExpire : Obligations.ProbeAndHoldTimersExpire := by
  unfold Obligations.ProbeAndHoldTimersExpire
  intro s l awake x
  have probe : exec (.probeTimerExpiry l) s = .next (s.probeExpiry l) := unlessHeld_running awake _
  have hold : exec (.holdTimerExpiry l) s = .next (s.holdExpiry l) := unlessHeld_running awake _
  rw [probe, hold]
  refine ⟨fun none => ?_, fun syncing running below => ?_, fun syncing running full => ?_, fun none => ?_,
    fun held running => ?_⟩
  · rw [probeExpiry_none none]
  · rw [probeExpiry_running syncing running, if_pos below]
  · rw [probeExpiry_running syncing running, if_neg (Nat.not_lt.mpr full)]
  · rw [holdExpiry_none none]
  · rw [holdExpiry_running held running]

/-! ### The transmit pair (R82, R86) -/

theorem probe_bytes : laneFrameBytes .probe = [0x7E, 0x01, 0xD1, 0xF1] := by decide

/-- Settles O43: by the lane's state and by what waits. -/
theorem pairSendsTheNextWaitingFrame : Obligations.PairSendsTheNextWaitingFrame := by
  unfold Obligations.PairSendsTheNextWaitingFrame
  intro s l awake st p run
  have sends : ∀ q, nextOnPair st p = q → run q := fun q next =>
    (unlessHeld_running awake _).trans (congrArg Host.Outcome.next (modLane_congr s (by rw [← next])))
  refine ⟨fun closed => sends _ ?_, fun syncing none => sends _ ?_, fun syncing n some => sends _ ?_,
    fun open_ a as waits => sends _ ?_, fun up none f fs waits => sends _ ?_, fun up none idle => sends _ ?_,
    fun held none => sends _ ?_⟩
  · rcases closed with eq | eq <;> rw [eq] <;> rfl
  · rw [syncing, nextOnPair, if_pos none]
  · rw [syncing, nextOnPair, if_neg (by omega), probe_bytes, some]
    rfl
  · rcases open_ with eq | eq <;> rw [eq, nextOnPair, waits]
  · rw [up, nextOnPair, none, waits]
  · rw [up, nextOnPair, none, idle]
  · rw [held, nextOnPair, none]

end Sys2Proof.Machine
end

-- ==== Proofs: Lane Receiver ====
section
/-! PROOFS. The Lane Receiver: station frames found behind noise, bytes that come in pieces, and damaged frames (R83, R185). -/

namespace Sys2Proof.Machine

/-! ### What stands behind a marker (R83, R185) -/

/-- The station frames of a fixed size, by type, with the number of their field bytes (R185). -/
def fixedSizes : List (Byte × Nat) := [(0x11, 3), (0x12, 1), (0x13, 1), (0x14, 0), (0x15, 0)]

theorem crcBytes_length (bytes : List Byte) : (crcBytes bytes).length = 2 := rfl

section
variable {type : Byte} {more fields : List Byte} {n : Nat}

theorem scanFields_complete (type : Byte) (fields more : List Byte) :
    scanFields type (fields ++ crcBytes (type :: fields) ++ more) fields.length = .complete := by
  have crc := crcBytes_length (type :: fields)
  unfold scanFields
  rw [if_neg (by simp only [List.length_append, crc]; omega), List.append_assoc, List.take_left, List.drop_left, ← crc,
    List.take_left, if_pos rfl]

theorem scanFields_bad (length : n + 2 ≤ more.length) (crc : crcBytes (type :: more.take n) ≠ (more.drop n).take 2) :
    scanFields type more n = .bad := by
  unfold scanFields
  rw [if_neg (by omega), if_neg crc]

/-- A bad frame stays bad, whatever comes behind it. -/
theorem scanFields_append (h : scanFields type more n = .bad) (later : List Byte) :
    scanFields type (more ++ later) n = .bad := by
  unfold scanFields at h
  split at h
  · cases h
  · next length =>
    split at h
    · cases h
    · next crc =>
      refine scanFields_bad (by rw [List.length_append]; omega) ?_
      rw [List.take_append_of_le_length (by omega), List.drop_append_of_le_length (by omega),
        List.take_append_of_le_length (by rw [List.length_drop]; omega)]
      exact crc

theorem scanLaneFrame_fixed (h : (type, n) ∈ fixedSizes) (more : List Byte) :
    scanLaneFrame (type :: more) = scanFields type more n := by
  simp only [fixedSizes, List.mem_cons, Prod.mk.injEq, List.not_mem_nil, or_false] at h
  rcases h with ⟨rfl, rfl⟩ | ⟨rfl, rfl⟩ | ⟨rfl, rfl⟩ | ⟨rfl, rfl⟩ | ⟨rfl, rfl⟩ <;> rfl

theorem scanLaneFrame_unknown (h : type ∉ [(0x11 : Byte), 0x12, 0x13, 0x14, 0x15, 0x16]) (more : List Byte) :
    scanLaneFrame (type :: more) = .bad := by
  simp only [List.mem_cons, List.not_mem_nil, or_false, not_or] at h
  obtain ⟨hello, ack, nak, hold, ready, reply⟩ := h
  unfold scanLaneFrame
  dsimp only
  rw [if_neg hello, if_neg (not_or.mpr ⟨ack, nak⟩), if_neg (not_or.mpr ⟨hold, ready⟩), if_neg reply]

theorem scanLaneFrame_reply (bit t0 t1 code len : Byte) (rest : List Byte) :
    scanLaneFrame (0x16 :: bit :: t0 :: t1 :: code :: len :: rest) =
      if len.toNat ≤ 64 then scanFields 0x16 (bit :: t0 :: t1 :: code :: len :: rest) (5 + len.toNat) else .bad := rfl

/-- A REPLY whose length has not come is incomplete. -/
theorem scanLaneFrame_replyShort (h : more.length < 5) : scanLaneFrame (0x16 :: more) = .incomplete := by
  match more, h with
  | [], _ => rfl
  | [_], _ => rfl
  | [_, _], _ => rfl
  | [_, _, _], _ => rfl
  | [_, _, _, _], _ => rfl

/-- A REPLY whose body would be too long (R83). -/
theorem scanLaneFrame_replyLong {len : Byte} (bit t0 t1 code : Byte) (rest : List Byte) (long : 64 < len.toNat) :
    scanLaneFrame (0x16 :: bit :: t0 :: t1 :: code :: len :: rest) = .bad := by
  rw [scanLaneFrame_reply, if_neg (Nat.not_le.mpr long)]

/-- A frame of a fixed size with a bad CRC (R83). -/
theorem scanLaneFrame_fixedBadCrc (fixed : (type, n) ∈ fixedSizes) (length : more.length = n + 2)
    (crc : crcBytes (type :: more.take n) ≠ more.drop n) : scanLaneFrame (type :: more) = .bad := by
  rw [scanLaneFrame_fixed fixed]
  refine scanFields_bad (by omega) ?_
  rwa [List.take_of_length_le (l := more.drop n) (by rw [List.length_drop]; omega)]

/-- A REPLY with a bad CRC (R83). -/
theorem scanLaneFrame_replyBadCrc {bit t0 t1 code len : Byte} {rest : List Byte} (fits : len.toNat ≤ 64)
    (length : rest.length = len.toNat + 2)
    (crc : crcBytes (0x16 :: bit :: t0 :: t1 :: code :: len :: rest.take len.toNat) ≠ rest.drop len.toNat) :
    scanLaneFrame (0x16 :: bit :: t0 :: t1 :: code :: len :: rest) = .bad := by
  rw [scanLaneFrame_reply, if_pos fits, Nat.add_comm 5]
  refine scanFields_bad (by simp only [List.length_cons]; omega) ?_
  simp only [List.take_succ_cons, List.drop_succ_cons]
  rwa [List.take_of_length_le (l := rest.drop _) (by rw [List.length_drop]; omega)]

/-- A type is unknown, of a fixed size, or that of a REPLY (R185). -/
theorem station_type (type : Byte) : type ∉ [(0x11 : Byte), 0x12, 0x13, 0x14, 0x15, 0x16] ∨
    (∃ n, (type, n) ∈ fixedSizes) ∨ type = 0x16 := by
  by_cases known : type ∈ [(0x11 : Byte), 0x12, 0x13, 0x14, 0x15, 0x16]
  · simp only [List.mem_cons, List.not_mem_nil, or_false] at known
    rcases known with rfl | rfl | rfl | rfl | rfl | rfl
    all_goals simp [fixedSizes]
  · exact .inl known

theorem scanLaneFrame_append {bytes : List Byte} (h : scanLaneFrame bytes = .bad) (later : List Byte) :
    scanLaneFrame (bytes ++ later) = .bad := by
  cases bytes with
  | nil => cases h
  | cons type more =>
    rw [List.cons_append]
    rcases station_type type with unknown | ⟨n, fixed⟩ | rfl
    · exact scanLaneFrame_unknown unknown _
    · rw [scanLaneFrame_fixed fixed] at h ⊢
      exact scanFields_append h later
    · match more, h with
      | bit :: t0 :: t1 :: code :: len :: rest, h =>
        rw [scanLaneFrame_reply] at h
        simp only [List.cons_append]
        rw [scanLaneFrame_reply]
        split at h
        · next fits =>
          rw [if_pos fits]
          exact scanFields_append h later
        · next long => rw [if_neg long]

end

/-! ### The receiver over a run of bytes (R83) -/

/-- What the receiver keeps of a run of bytes. -/
def hunted (bytes : List Byte) : List Byte := huntLane (bytes.length + 1) bytes

@[simp] theorem hunted_nil : hunted [] = [] := rfl

/-- More fuel than bytes is enough. -/
theorem huntLane_eq {fuel : Nat} {bytes : List Byte} (h : bytes.length < fuel) : huntLane fuel bytes = hunted bytes := by
  induction fuel generalizing bytes with
  | zero => omega
  | succ fuel ih =>
    cases bytes with
    | nil => rfl
    | cons b rest =>
      rw [List.length_cons] at h
      change huntLane (fuel + 1) (b :: rest) = huntLane (rest.length + 1 + 1) (b :: rest)
      rw [huntLane, huntLane, ih (by omega)]
      rfl

theorem hunted_other {b : Byte} (h : b ≠ Config.marker) (rest : List Byte) : hunted (b :: rest) = hunted rest := by
  rw [hunted, huntLane, if_neg h]
  rfl

theorem hunted_bad {rest : List Byte} (h : scanLaneFrame rest = .bad) : hunted (Config.marker :: rest) = hunted rest := by
  rw [hunted, huntLane, if_pos rfl, h]
  rfl

theorem hunted_kept {rest : List Byte} (h : scanLaneFrame rest ≠ .bad) :
    hunted (Config.marker :: rest) = Config.marker :: rest := by
  rw [hunted, huntLane, if_pos rfl]
  cases scan : scanLaneFrame rest with
  | bad => exact absurd scan h
  | incomplete | complete => rfl

/-- Bytes without a marker are passed over. -/
theorem hunted_noise {noise : List Byte} (h : Config.marker ∉ noise) (bytes : List Byte) :
    hunted (noise ++ bytes) = hunted bytes := by
  induction noise with
  | nil => rfl
  | cons b noise ih =>
    rw [List.mem_cons, not_or] at h
    rw [List.cons_append, hunted_other (Ne.symm h.1), ih h.2]

theorem hunted_quiet {noise : List Byte} (h : Config.marker ∉ noise) : hunted noise = [] := by
  have passed := hunted_noise h []
  rwa [List.append_nil] at passed

/-- Bytes may come in pieces. -/
theorem hunted_append (bytes later : List Byte) : hunted (hunted bytes ++ later) = hunted (bytes ++ later) := by
  induction bytes with
  | nil => rfl
  | cons b rest ih =>
    rw [List.cons_append]
    by_cases marker : b = Config.marker
    · subst marker
      by_cases bad : scanLaneFrame rest = .bad
      · rw [hunted_bad bad, ih, hunted_bad (scanLaneFrame_append bad later)]
      · rw [hunted_kept bad, List.cons_append]
    · rw [hunted_other marker, hunted_other marker, ih]

/-! ### Well-formed frames (R185) -/

/-- A well-formed frame is a marker and what the receiver reads as complete, whatever comes behind it. -/
theorem isStationFrame_complete {frame : List Byte} (h : isStationFrame frame) :
    ∃ rest, frame = Config.marker :: rest ∧ ∀ more, scanLaneFrame (rest ++ more) = .complete := by
  have fixed : ∀ {type : Byte} {fields : List Byte}, (type, fields.length) ∈ fixedSizes →
      ∃ rest, laneFrameOf type fields = Config.marker :: rest ∧ ∀ more, scanLaneFrame (rest ++ more) = .complete :=
    fun {type fields} listed => ⟨_, rfl, fun more => by
      rw [List.cons_append, scanLaneFrame_fixed listed]
      exact scanFields_complete type fields more⟩
  rcases h with ⟨window, id, rfl⟩ | ⟨n, rfl⟩ | ⟨n, rfl⟩ | rfl | rfl | ⟨bit, tag, code, body, fits, rfl⟩
  · exact fixed (by simp [fixedSizes, bytes16])
  · exact fixed (by simp [fixedSizes])
  · exact fixed (by simp [fixedSizes])
  · exact fixed (by simp [fixedSizes])
  · exact fixed (by simp [fixedSizes])
  · refine ⟨_, rfl, fun more => ?_⟩
    have size : (natByte body.length).toNat = body.length := by
      simp only [natByte, BitVec.toNat_ofNat]
      omega
    have complete := scanFields_complete 0x16 (bit :: bytes16 tag ++ [code, natByte body.length] ++ body) more
    simp only [bytes16, List.cons_append, List.nil_append, List.length_cons, scanLaneFrame_reply, size] at complete ⊢
    rw [if_pos fits, Nat.add_comm 5]
    exact complete

/-- Settles O35: the frame is complete behind its marker, so hunting stops in front of it. -/
theorem stationFrameIsReadBack : Obligations.StationFrameIsReadBack := by
  unfold Obligations.StationFrameIsReadBack
  intro frame noise more station quiet
  obtain ⟨rest, rfl, complete⟩ := isStationFrame_complete station
  refine ⟨?_, fun s l => ⟨fun hunting => if_pos hunting, fun kept => ?_⟩⟩
  · change hunted _ = _
    rw [List.append_assoc, hunted_noise quiet, List.cons_append, hunted_kept (by simp [complete])]
  · unfold State.handOn
    rw [kept]
    dsimp only
    rw [if_neg (by simp), if_pos (List.isPrefixOf_iff_prefix.mpr (List.prefix_append _ _)), List.drop_left,
      huntLane_eq (by simp only [List.length_append]; omega)]
    rfl

/-! ### Bytes on the receive pair (R83) -/

section
variable {s : State} (l : LaneId)

/-- The receiver's own bytes after a run of bytes on the pair. -/
def State.receives (s : State) (l : LaneId) (bytes : List Byte) : State :=
  s.modRcv l fun r => { r with rx := hunted (r.rx ++ bytes) }

theorem execLaneFrameDiscard_awake (awake : s.heldInReset = false) (bytes : List Byte) :
    exec (.laneFrameDiscard l bytes) s = .next (s.receives l bytes) := unlessHeld_running awake _

theorem receives_append (a b : List Byte) : (s.receives l a).receives l b = s.receives l (a ++ b) := by
  simp only [State.receives, State.modRcv, modLane_modLane, hunted_append, List.append_assoc]

/-- A hunting receiver that keeps nothing of the bytes is as before. -/
theorem receives_nothing {bytes : List Byte} (hunting : (s.lane l).rcv.rx = []) (nothing : hunted bytes = []) :
    s.receives l bytes = s := by
  unfold State.receives
  refine modLane_self s l _ ?_
  dsimp only
  rw [hunting, List.nil_append, nothing, ← hunting]

end

/-- Settles O36: the bytes change the receiver alone, pieces join, and what is damaged is read again as noise. -/
theorem damagedStationFramesAreDiscarded : Obligations.DamagedStationFramesAreDiscarded := by
  unfold Obligations.DamagedStationFramesAreDiscarded
  intro s l awake
  have received := execLaneFrameDiscard_awake l awake
  refine ⟨fun bytes => ⟨hunted ((s.lane l).rcv.rx ++ bytes), (received bytes).trans (congrArg Host.Outcome.next ?_)⟩,
    fun a b => ⟨s.receives l a, s.receives l (a ++ b), received a, ?_, received _⟩,
    fun hunting => ⟨fun bytes quiet => ?_, fun type more quiet damage => ?_⟩⟩
  · unfold State.receives
    exact modLane_congr s rfl
  · rw [← receives_append]
    exact execLaneFrameDiscard_awake l (s := s.receives l a) awake b
  · rw [received, receives_nothing l hunting (hunted_quiet quiet)]
  · have bad : scanLaneFrame (type :: more) = .bad := by
      rcases damage with unknown | ⟨bit, t0, t1, code, len, rest, rfl, rfl, long⟩ | ⟨n, fixed, length, crc⟩ |
        ⟨bit, t0, t1, code, len, rest, rfl, rfl, fits, length, crc⟩
      · exact scanLaneFrame_unknown unknown more
      · exact scanLaneFrame_replyLong bit t0 t1 code rest long
      · exact scanLaneFrame_fixedBadCrc fixed length crc
      · exact scanLaneFrame_replyBadCrc fits length crc
    rw [received, receives_nothing l hunting (by rw [hunted_bad bad, hunted_quiet quiet])]

end Sys2Proof.Machine
end

-- ==== Proofs: Acknowledgement ====
section
/-! PROOFS. Acknowledgement: CANCEL cuts, ACK, and the retries that a NAK or an expiry of the ack timer starts (R107, R111 to
R115, R119 to R123). -/

namespace Sys2Proof.Machine

section
variable {s : State} {l : LaneId}

/-! ### CANCEL cuts (R107, R111) -/

/-- Nothing is cut outside UP, without room, or with no CANCEL waiting (R107). -/
theorem cancelCut_nothing (h : (s.lane l).ctl.state ≠ .up ∨ (s.lane l).ctl.window ≤ (s.lane l).tx.inFlight.length ∨
    (s.lane l).tx.cancels = []) : s.cancelCut l = s := by
  unfold State.cancelCut
  split
  · next can =>
    obtain ⟨up, room⟩ := canCut_iff.mp can
    rcases h with closed | full | none_waits
    · exact absurd up closed
    · omega
    · rw [none_waits]
  · rfl

/-- The head of the cancel list leaves it and is launched, as one change of the lane (R111 to R113). -/
theorem cancelCut_head (up : (s.lane l).ctl.state = .up) (room : (s.lane l).tx.inFlight.length < (s.lane l).ctl.window)
    {e : CancelEntry} {rest : List CancelEntry} (head : (s.lane l).tx.cancels = e :: rest) :
    s.cancelCut l = s.modLane l fun x => { x with
      tx := { x.tx with
        cancels := rest
        inFlight := x.tx.inFlight ++ [⟨x.tx.nextSeq, e.ctx, .cancel⟩]
        nextSeq := x.tx.nextSeq + 1
        ackTimer := (if x.tx.inFlight = [] then some x.ctl.config.ackTimeout else x.tx.ackTimer) }
      pair := { x.pair with
        frames := x.pair.frames ++ [⟨.cancel x.tx.nextSeq (s.ctx e.ctx).tag, some x.tx.nextSeq⟩] } } := by
  unfold State.cancelCut
  rw [if_pos (canCut_iff.mpr ⟨up, room⟩), head]
  simp only [State.cutCancel, launch_eq, lane_modTx_same]
  simp only [State.modTx, modLane_modLane]
  exact modLane_congr s (by rw [head, List.tail_cons])

end

/-- Settles O42: by what a cut needs, and the launch of the head of the cancel list. -/
theorem cancelCutSendsTheHeadOfTheList : Obligations.CancelCutSendsTheHeadOfTheList := by
  unfold Obligations.CancelCutSendsTheHeadOfTheList
  intro s l awake x
  have taken : exec (.cancelCut l) s = .next (s.cancelCut l) := unlessHeld_running awake _
  rw [taken]
  refine ⟨fun nothing => ?_, fun e rest up room head => ?_⟩
  · rw [cancelCut_nothing nothing]
  · rw [cancelCut_head up room head]

/-! ### ACK: what the accounting of entries reads and leaves (R116) -/

/-- The same part but for the Context Table, the segment pool, the pins and the notices. -/
structure SameBesideJobs (s t : State) : Prop where
  lanes : t.lanes = s.lanes
  mem : t.mem = s.mem
  host : t.host = s.host
  heldInReset : t.heldInReset = s.heldInReset
  powerOnDue : t.powerOnDue = s.powerOnDue
  pending : t.pending = s.pending

namespace SameBesideJobs

theorem refl (s : State) : SameBesideJobs s s := ⟨rfl, rfl, rfl, rfl, rfl, rfl⟩

theorem trans {s t u : State} (h : SameBesideJobs s t) (h' : SameBesideJobs t u) : SameBesideJobs s u :=
  ⟨h'.lanes.trans h.lanes, h'.mem.trans h.mem, h'.host.trans h.host, h'.heldInReset.trans h.heldInReset,
    h'.powerOnDue.trans h.powerOnDue, h'.pending.trans h.pending⟩

theorem freeCtx (s : State) (c : CtxId) (r : EndReason) : SameBesideJobs s (s.freeCtx c r) :=
  ⟨freeCtx_lanes .., freeCtx_mem .., freeCtx_host .., freeCtx_heldInReset .., freeCtx_powerOnDue .., freeCtx_pending ..⟩

theorem segmentAcked (s : State) (l : LaneId) (c : CtxId) (k : Nat) : SameBesideJobs s (s.segmentAcked l c k) := by
  unfold State.segmentAcked
  split <;> exact ⟨rfl, rfl, rfl, rfl, rfl, rfl⟩

theorem account (s : State) (l : LaneId) (e : InFlight) : SameBesideJobs s (s.account l e) := by
  obtain ⟨q, c, what⟩ := e
  cases what with
  | cancel => exact freeCtx s c .aborted
  | data k f flags =>
    cases last : flags.last with
    | false => rw [account_notLast s l q c k f last]; exact refl s
    | true =>
      rw [account_last s l q c k f last]
      split
      · exact (segmentAcked s l c k).trans (freeCtx _ c _)
      · exact segmentAcked s l c k

theorem accounts (s : State) (l : LaneId) (es : List InFlight) :
    SameBesideJobs s (es.foldl (fun s e => s.account l e) s) := by
  induction es generalizing s with
  | nil => exact refl s
  | cons e es ih => exact (account s l e).trans (ih _)

end SameBesideJobs

section
variable (s : State) (l : LaneId) (f : Transmitter → Transmitter)

/-! The accounting does not look at the transmitter, so a change of the transmitter may come before or after it. -/

theorem modTx_store (free : List PoolId) (pool : Vector Segment 512) (pins : Vector Nat 64) :
    ({ s.modTx l f with freeList := free, pool := pool, pins := pins } : State) =
      ({ s with freeList := free, pool := pool, pins := pins } : State).modTx l f := rfl

theorem freeCtx_modTx (c : CtxId) (r : EndReason) : (s.modTx l f).freeCtx c r = (s.freeCtx c r).modTx l f := by
  have segments : (s.modTx l f).jobSegments c = s.jobSegments c := rfl
  unfold State.freeCtx
  simp only [segments, ctx_modTx, modTx_pool, modTx_freeList, modTx_pins, modTx_store]
  rw [State.modTx, ← modLane_post, ← modLane_modCtx]
  rfl

theorem segmentAcked_modTx (c : CtxId) (k : Nat) :
    (s.modTx l f).segmentAcked l c k = (s.segmentAcked l c k).modTx l f := by
  have reports : (s.modTx l f).reports l c k = s.reports l c k := by
    unfold State.reports
    rw [lane_modTx_same]
    rfl
  unfold State.segmentAcked
  rw [reports]
  split <;> rfl

theorem account_modTx (e : InFlight) : (s.modTx l f).account l e = (s.account l e).modTx l f := by
  obtain ⟨q, c, what⟩ := e
  cases what with
  | cancel => exact freeCtx_modTx s l f c .aborted
  | data k n flags =>
    cases last : flags.last with
    | false => rw [account_notLast _ l q c k n last, account_notLast s l q c k n last]
    | true =>
      rw [account_last _ l q c k n last, account_last s l q c k n last, segmentAcked_modTx,
        show (s.modTx l f).completes c = s.completes c from rfl]
      split
      · exact freeCtx_modTx _ l f c .completed
      · rfl

theorem accounts_modTx (es : List InFlight) : es.foldl (fun s e => s.account l e) (s.modTx l f) =
    (es.foldl (fun s e => s.account l e) s).modTx l f := by
  induction es generalizing s with
  | nil => rfl
  | cons e es ih => rw [List.foldl_cons, account_modTx, ih, List.foldl_cons]

end

/-! ### ACK: the entries removed and what becomes of the lane (R115, R121) -/

/-- The entries through the first of a number, and those behind it (R115). -/
theorem splitThrough_append {before after : List InFlight} {e : InFlight} (h : ∀ y ∈ before, y.seq ≠ e.seq) :
    splitThrough e.seq.toNat (before ++ e :: after) = some (before ++ [e], after) := by
  induction before with
  | nil => exact if_pos rfl
  | cons b before ih =>
    rw [List.forall_mem_cons] at h
    have other : b.seq.toNat ≠ e.seq.toNat := fun same => h.1 (BitVec.eq_of_toNat_eq same)
    rw [List.cons_append, splitThrough, if_neg other, ih h.2]
    rfl

/-- The lane once an ACK has removed entries from the front of its list, with the lane's state and settings as they were. -/
def Lane.acknowledged (removed rest : List InFlight) (x : Lane) : Lane :=
  { x with
    tx := { x.tx with
      inFlight := rest
      retry := 0
      deferred := deferredAfter x.tx.deferred removed rest
      ackTimer := (if x.ctl.state = .up then (if rest = [] then none else some x.ctl.config.ackTimeout) else x.tx.ackTimer) }
    pair := { x.pair with frames := x.pair.frames.map fun w =>
      if (∃ y ∈ removed, w.copyOf = some y.seq) then { w with copyOf := none } else w } }

/-- An ACK is the accounting of its entries and one change of the lane (R115, R121). -/
theorem acknowledge_eq_modLane (s : State) (l : LaneId) (removed rest : List InFlight) : s.acknowledge l removed rest =
    (removed.foldl (fun s e => s.account l e) s).modLane l (Lane.acknowledged removed rest) := by
  have lane := lane_congr (SameBesideJobs.accounts s l removed).lanes l
  unfold State.acknowledge
  simp only [accounts_modTx]
  simp only [State.modTx, State.modPair, modLane_modLane]
  refine modLane_congr _ ?_
  simp only [Lane.acknowledged, lane, beq_iff_eq, List.isEmpty_iff, List.any_eq_true]

theorem takeAck_named {s : State} {l : LaneId} {n : Byte} {removed rest : List InFlight}
    (state : (s.lane l).ctl.state = .up ∨ (s.lane l).ctl.state = .held)
    (split : splitThrough n.toNat (s.lane l).tx.inFlight = some (removed, rest)) :
    s.takeAck l n = s.acknowledge l removed rest := by
  unfold State.takeAck
  rcases state with eq | eq <;> rw [eq, split]

/-- The deferred point after an ACK, by whether its entry is among those removed (R121). -/
theorem deferredAfter_some (d : BitVec 4) (removed rest : List InFlight) : deferredAfter (some d) removed rest =
    if d ∈ removed.map (·.seq) then rest.head?.map (·.seq) else some d := by
  simp [deferredAfter]

/-- Settles O44: the entries named are accounted for, which leaves the lanes and what is no record of a job, and the rest is
one change of the lane. -/
theorem ackRemovesEntriesThroughTheNamedOne : Obligations.AckRemovesEntriesThroughTheNamedOne := by
  unfold Obligations.AckRemovesEntriesThroughTheNamedOne
  intro s u l n before after e handed state flight named others x v
  have kept : SameBesideJobs u v := .accounts u l (before ++ [e])
  have split : splitThrough n.toNat (u.lane l).tx.inFlight = some (before ++ [e], after) := by
    rw [flight, ← named, splitThrough_append others]
  have taken : exec (.ack l n) s = .next (v.modLane l (Lane.acknowledged (before ++ [e]) after)) := by
    refine (onFrame_handsOn handed).trans (congrArg Host.Outcome.next ?_)
    rw [takeAck_named state split, acknowledge_eq_modLane]
  refine ⟨_, taken, rfl, rfl, rfl, rfl, rfl, ?_, fun k hk => ?_, kept.mem, kept.host, kept.heldInReset, kept.powerOnDue,
    kept.pending⟩
  · have timer (a b : Option Nat) : (if x.ctl.state = .up then a else b) = if x.ctl.state = .held then b else a := by
      rcases state with eq | eq <;> simp [x, eq]
    rw [lane_modLane_same, lane_congr kept.lanes, Lane.acknowledged, timer]
    cases point : x.tx.deferred with
    | none => rfl
    | some d => rw [deferredAfter_some]
  · rw [lane_modLane_ne _ _ hk.symm, lane_congr kept.lanes]

/-! ### A retry (R123) -/

section
variable {s : State} {l : LaneId}

/-- The retry count one higher. -/
def State.retried (s : State) (l : LaneId) : State := s.modTx l fun t => { t with retry := t.retry + 1 }

theorem lane_retried_same (s : State) (l : LaneId) : (s.retried l).lane l =
    { s.lane l with tx := { (s.lane l).tx with retry := (s.lane l).tx.retry + 1 } } := lane_modTx_same ..

theorem faulted_retried (s : State) (l : LaneId) (why : FaultCause) (cause : LaneCause) :
    (s.retried l).faulted l why cause = (s.faulted l why cause).retried l := by
  simp only [State.faulted, State.retried, State.postLaneState, State.modTx, State.modCtl, State.modPair, modLane_post,
    modLane_modLane, lane_modLane_same]

theorem rollback_retried (s : State) (l : LaneId) : (s.retried l).rollback l = (s.rollback l).retried l := by
  have again : (s.retried l).requeued l = s.requeued l := by
    unfold State.requeued
    rw [lane_retried_same]
    rfl
  have table (v : Vector Context 48) :
      ({ s.retried l with ctxs := v } : State) = ({ s with ctxs := v } : State).retried l := rfl
  unfold State.rollback
  simp only [again, table]
  simp only [State.retried, State.modTx, State.modSched, modLane_modLane]
  rfl

/-- A retry count raised before an entry into FAULT is lost, as the entry clears it (R129). -/
theorem enterFault_retried (s : State) (l : LaneId) (why : FaultCause) (cause : LaneCause) :
    (s.retried l).enterFault l why cause = s.enterFault l why cause := by
  rw [enterFault_eq, enterFault_eq, faulted_retried, rollback_retried, lane_retried_same]
  generalize (s.faulted l why cause).rollback l = rolled
  simp only [State.silenced, State.retried, State.modTx, modLane_modLane]
  rfl

theorem retryOr_above {again : State → Except Fault State}
    (above : (s.lane l).ctl.config.retryLimit < (s.lane l).tx.retry + 1) :
    s.retryOr l again = .ok (s.enterFault l .retryLimit .retryLimit) := by
  have raised : ((s.retried l).lane l).ctl.config.retryLimit < ((s.retried l).lane l).tx.retry := by
    rwa [lane_retried_same]
  exact (if_pos raised).trans (congrArg Except.ok (enterFault_retried s l _ _))

theorem retryOr_within {again : State → Except Fault State}
    (within : (s.lane l).tx.retry + 1 ≤ (s.lane l).ctl.config.retryLimit) : s.retryOr l again = again (s.retried l) := by
  have raised : ¬ ((s.retried l).lane l).ctl.config.retryLimit < ((s.retried l).lane l).tx.retry := by
    rw [lane_retried_same]
    exact Nat.not_lt.mpr within
  exact if_neg raised

/-- Frames formed again do not depend on the retry count. -/
theorem retransmit_retried {es : List InFlight} (formed : ∀ y ∈ es, formable s l y) :
    (s.retried l).retransmit l es = .ok ((s.resent l es).retried l) := by
  have config : ((s.retried l).lane l).ctl.config = (s.lane l).ctl.config := by rw [lane_retried_same]
  have frame : ∀ e, frameOf (s.retried l) l e = frameOf s l e := fun e => frameOf_congr rfl rfl rfl config
  have formed : ∀ y ∈ es, formable (s.retried l) l y := fun y hy =>
    (formable_congr (s := s.retried l) (t := s) rfl rfl config).mpr (formed y hy)
  rw [retransmit_formable formed]
  simp only [State.resent, frame, lane_retried_same]
  simp only [State.retried, State.modTx, modLane_modLane]

/-- A retry that forms entries again and starts the ack timer (R114, R119). -/
theorem retryOr_resends {again : State → Except Fault State} {es : List InFlight}
    (within : (s.lane l).tx.retry + 1 ≤ (s.lane l).ctl.config.retryLimit) (formed : ∀ y ∈ es, formable s l y)
    (resends : ∀ v, (s.retried l).retransmit l es = .ok v → again (s.retried l) = .ok (v.startAckTimer l)) :
    s.retryOr l again = .ok ((s.resent l es).modTx l fun t =>
      { t with retry := t.retry + 1, ackTimer := some (s.lane l).ctl.config.ackTimeout }) := by
  have config : (((s.resent l es).retried l).lane l).ctl.config = (s.lane l).ctl.config := by
    rw [lane_retried_same, State.resent, lane_modLane_same]
  rw [retryOr_within within, resends _ (retransmit_retried formed), State.startAckTimer, config]
  simp only [State.retried, State.modTx, modLane_modLane]

/-! ### NAK (R119, R120) -/

section
variable {n : Byte} {e : InFlight}

/-- A NAK that names an entry is not ignored, and its number is the entry's (R119). -/
theorem takeNak_named (entry : e ∈ (s.lane l).tx.inFlight) (named : e.seq.toNat = n.toNat) :
    ((s.lane l).tx.inFlight.any fun y => y.seq.toNat == n.toNat) = true ∧ n.setWidth 4 = e.seq :=
  ⟨List.any_eq_true.mpr ⟨e, entry, by simpa using named⟩, by bv_omega⟩

theorem takeNak_above (entry : e ∈ (s.lane l).tx.inFlight) (named : e.seq.toNat = n.toNat)
    (state : (s.lane l).ctl.state = .up ∨ (s.lane l).ctl.state = .held)
    (above : (s.lane l).ctl.config.retryLimit < (s.lane l).tx.retry + 1) :
    s.takeNak l n = .ok (s.enterFault l .retryLimit .retryLimit) := by
  obtain ⟨taken, -⟩ := takeNak_named entry named
  unfold State.takeNak
  rw [if_pos taken]
  rcases state with eq | eq <;> rw [eq] <;> exact retryOr_above above

theorem takeNak_up (entry : e ∈ (s.lane l).tx.inFlight) (named : e.seq.toNat = n.toNat)
    (up : (s.lane l).ctl.state = .up) (within : (s.lane l).tx.retry + 1 ≤ (s.lane l).ctl.config.retryLimit)
    (formed : ∀ y ∈ fromSeq (s.lane l).tx.inFlight e.seq, formable s l y) :
    s.takeNak l n = .ok ((s.resent l (fromSeq (s.lane l).tx.inFlight e.seq)).modTx l fun t =>
      { t with retry := t.retry + 1, ackTimer := some (s.lane l).ctl.config.ackTimeout }) := by
  obtain ⟨taken, number⟩ := takeNak_named entry named
  unfold State.takeNak
  rw [if_pos taken, up]
  refine retryOr_resends within formed fun v sent => ?_
  simp only [lane_retried_same, number, sent]

theorem takeNak_held (entry : e ∈ (s.lane l).tx.inFlight) (named : e.seq.toNat = n.toNat)
    (held : (s.lane l).ctl.state = .held) (within : (s.lane l).tx.retry + 1 ≤ (s.lane l).ctl.config.retryLimit) :
    s.takeNak l n = .ok (s.modTx l fun t => { t with
      retry := t.retry + 1, deferred := some (deferTo t.inFlight t.deferred e.seq) }) := by
  obtain ⟨taken, number⟩ := takeNak_named entry named
  unfold State.takeNak
  rw [if_pos taken, held, number]
  refine (retryOr_within within).trans (congrArg Except.ok ?_)
  simp only [State.retried, State.modTx, modLane_modLane]

end

/-- The deferred point after a NAK of a hold, by whether the point so far is behind the entry named (R120). -/
theorem deferTo_some (es : List InFlight) (d q : BitVec 4) :
    some (deferTo es (some d) q) = if d ∈ (fromSeq es q).map (·.seq) then some q else some d := by
  have behind : ((fromSeq es q).any fun e => e.seq == d) = true ↔ d ∈ (fromSeq es q).map (·.seq) := by simp
  unfold deferTo
  simp only [behind]
  split <;> rfl

/-! ### Expiry of the ack timer (R114) -/

theorem ackExpiry_none (h : (s.lane l).ctl.state ≠ .up ∨ (s.lane l).tx.ackTimer = none) : s.ackExpiry l = .ok s := by
  unfold State.ackExpiry
  split
  · next up running => simp [up, running] at h
  · rfl

theorem ackExpiry_above (up : (s.lane l).ctl.state = .up) (running : (s.lane l).tx.ackTimer ≠ none)
    (above : (s.lane l).ctl.config.retryLimit < (s.lane l).tx.retry + 1) :
    s.ackExpiry l = .ok (s.enterFault l .retryLimit .retryLimit) := by
  obtain ⟨n, running⟩ := Option.ne_none_iff_exists'.mp running
  unfold State.ackExpiry
  rw [up, running]
  exact retryOr_above above

theorem ackExpiry_within (up : (s.lane l).ctl.state = .up) (running : (s.lane l).tx.ackTimer ≠ none)
    (within : (s.lane l).tx.retry + 1 ≤ (s.lane l).ctl.config.retryLimit)
    (formed : ∀ y ∈ (s.lane l).tx.inFlight, formable s l y) :
    s.ackExpiry l = .ok ((s.resent l (s.lane l).tx.inFlight).modTx l fun t =>
      { t with retry := t.retry + 1, ackTimer := some (s.lane l).ctl.config.ackTimeout }) := by
  obtain ⟨n, running⟩ := Option.ne_none_iff_exists'.mp running
  unfold State.ackExpiry
  rw [up, running]
  refine retryOr_resends within formed fun v sent => ?_
  simp only [lane_retried_same, sent]

end

/-- Settles O46: by the retry limit and the state of the lane; the entries from the one named on are those behind entries of
other numbers. -/
theorem nakRetransmitsOrDefers : Obligations.NakRetransmitsOrDefers := by
  unfold Obligations.NakRetransmitsOrDefers
  intro s u l n before after e handed flight named others x
  have taken : exec (.nak l n) s = outcomeOf (u.takeNak l n) := onFrame_handsOn handed
  have entry : e ∈ (u.lane l).tx.inFlight := by simp [flight]
  have from_on : fromSeq (u.lane l).tx.inFlight e.seq = e :: after := by rw [flight, fromSeq_append others]
  refine ⟨fun state above => ?_, fun up within formed => ?_, fun held within => ?_⟩
  · rw [taken, takeNak_above entry named state above]
    rfl
  · rw [taken, takeNak_up entry named up within (by rwa [from_on]), from_on]
    rfl
  · rw [taken, takeNak_held entry named held within]
    refine congrArg Host.Outcome.next (modLane_congr u ?_)
    cases point : (u.lane l).tx.deferred with
    | none => simp only [point, deferTo]
    | some d => simp only [point, deferTo_some, from_on]

/-- Settles O47: by the lane's state, the timer and the retry limit. -/
theorem ackTimerExpiryRetransmitsAll : Obligations.AckTimerExpiryRetransmitsAll := by
  unfold Obligations.AckTimerExpiryRetransmitsAll
  intro s l awake x
  have taken : exec (.ackTimerExpiry l) s = outcomeOf (s.ackExpiry l) := unlessHeld_running awake _
  rw [taken]
  refine ⟨fun none => ?_, fun up running above => ?_, fun up running within formed => ?_⟩
  · rw [ackExpiry_none none]
    rfl
  · rw [ackExpiry_above up running above]
    rfl
  · rw [ackExpiry_within up running within formed]
    rfl

end Sys2Proof.Machine
end

-- ==== Proofs: Station returns ====
section
/-! PROOFS. Station returns: a REPLY taken in UP or HELD, and FETCH (R147 to R149, R151, R183). -/

namespace Sys2Proof.Machine

section
variable {s : State} {l : LaneId}

/-! ### REPLY (R147, R148, R149) -/

theorem takeReply_stores (b : Byte) (r : Return) (hears : (s.lane l).ctl.state = .up ∨ (s.lane l).ctl.state = .held) :
    s.takeReply l b r = s.storeReply l (b.getLsbD 0) r := by
  unfold State.takeReply
  rcases hears with eq | eq <;> rw [eq]

theorem storeReply_duplicate {bit : Bool} (r : Return) (last : (s.lane l).rcv.lastBit = some bit) :
    s.storeReply l bit r = s.modPair l fun p => { p with answers := p.answers ++ [.rack bit] } := if_pos last

theorem storeReply_full {bit : Bool} (r : Return) (fresh : (s.lane l).rcv.lastBit ≠ some bit)
    (full : 32 ≤ (s.lane l).returns.length) :
    s.storeReply l bit r = s.modPair l fun p => { p with answers := p.answers ++ [.rnak bit] } :=
  (if_neg fresh).trans (if_neg (Nat.not_lt.mpr full))

/-- A return accepted, as one change of the lane and the notice of a list that was empty (R148). -/
theorem storeReply_room {bit : Bool} (r : Return) (fresh : (s.lane l).rcv.lastBit ≠ some bit)
    (room : (s.lane l).returns.length < 32) :
    let v := s.modLane l fun x => { x with
      returns := x.returns ++ [r]
      rcv := { x.rcv with lastBit := some bit }
      pair := { x.pair with answers := x.pair.answers ++ [.rack bit] } }
    s.storeReply l bit r = if (s.lane l).returns = [] then v.post (.returnReady l) else v := by
  refine (if_neg fresh).trans ((if_pos room).trans ?_)
  simp only [State.answerStation, State.modRcv, State.modPair, modLane_modLane, List.isEmpty_iff]

/-! ### FETCH (R151, R183) -/

theorem performFetch_empty {lane : Byte} (s : State) (named : lane.toNat = l.val) (none_held : (s.lane l).returns = []) :
    performFetch [lane] s = refuse s .empty := by
  rw [performFetch, onLane_lane _ _ named, none_held]

theorem performFetch_oldest {lane : Byte} (s : State) {r : Return} {rest : List Return} (named : lane.toNat = l.val)
    (oldest : (s.lane l).returns = r :: rest) :
    performFetch [lane] s = { state := s.modLane l fun x => { x with returns := rest }, body :=
      [0, r.tag.setWidth 8, (r.tag >>> 8).setWidth 8, r.code, BitVec.ofNat 8 r.body.length] ++ r.body ++
        [BitVec.ofNat 8 rest.length] } := by
  rw [performFetch, onLane_lane _ _ named, oldest]
  simp only [bytes16_eq]
  rfl

end

/-- Settles O34: by the last accepted bit and the room in the lane's list. -/
theorem replyIsAcceptedOnce : Obligations.ReplyIsAcceptedOnce := by
  unfold Obligations.ReplyIsAcceptedOnce
  intro s u l b code tag body fits handed hears x bit
  have taken : exec (.reply l b tag code body) s = .next (u.storeReply l bit ⟨tag, code, body⟩) := by
    rw [← takeReply_stores b _ hears]
    exact (execReply_fits b code tag fits).trans (onFrame_handsOn handed)
  rw [taken]
  refine ⟨fun last => ?_, fun fresh full => ?_, fun fresh room => ?_⟩
  · rw [storeReply_duplicate _ last]
  · rw [storeReply_full _ fresh full]
  · rw [storeReply_room _ fresh room]

/-- Settles O33: by whether the lane holds a return. -/
theorem fetchTakesTheOldestReturn : Obligations.FetchTakesTheOldestReturn := by
  unfold Obligations.FetchTakesTheOldestReturn
  intro s seq lane l named h
  refine ⟨fun none_held => takeRequest_replies h rfl (performFetch_empty _ named none_held), fun e rest oldest => ?_⟩
  exact takeRequest_acts (act := fun v => v.modLane l fun x => { x with returns := rest }) h rfl
    (performFetch_oldest s.taking named oldest) rfl rfl

end Sys2Proof.Machine
end

-- ==== Proofs: Notices ====
section
/-! PROOFS. Notices: the Notice Queue and what keeps its law, the two requests of the host on it, and the outbound
transmitter (R157 to R163, R170, R174). -/

namespace Sys2Proof.Machine

/-! ### The numbers of the notices held (R157) -/

section
variable {next : BitVec 8} {xs ys : List Notice}

theorem numberedTo_cons {x : Notice} : numberedTo next (x :: xs) = true ↔
    x.seq + BitVec.ofNat 8 (xs.length + 1) = next ∧ numberedTo next xs = true := by simp [numberedTo]

/-- The numbering is a matter of the numbers alone. -/
theorem numberedTo_congr (same : xs.map (·.seq) = ys.map (·.seq)) : numberedTo next xs = numberedTo next ys := by
  induction xs generalizing ys with
  | nil => rw [List.map_eq_nil_iff.mp same.symm]
  | cons x xs ih =>
    obtain ⟨y, ys, rfl⟩ := List.exists_cons_of_ne_nil (l := ys) (by rintro rfl; cases same)
    obtain ⟨seq, rest⟩ := List.cons.inj same
    have length : xs.length = ys.length := by simpa using congrArg List.length rest
    simp only [numberedTo, seq, length, ih rest]

/-- The next number continues the numbering. -/
theorem numberedTo_append (h : numberedTo next xs = true) (b : NoticeBody) (sent : Bool) :
    numberedTo (next + 1) (xs ++ [⟨next, b, sent⟩]) = true := by
  induction xs with
  | nil => simp [numberedTo]
  | cons x xs ih =>
    obtain ⟨number, rest⟩ := numberedTo_cons.mp h
    rw [List.cons_append, numberedTo_cons, List.length_append, List.length_singleton, BitVec.ofNat_add,
      ← BitVec.add_assoc, number]
    exact ⟨rfl, ih rest⟩

theorem numberedTo_suffix {removed : List Notice} (h : numberedTo next (removed ++ xs) = true) :
    numberedTo next xs = true := by
  induction removed with
  | nil => exact h
  | cons x removed ih => exact ih (numberedTo_cons.mp h).2

/-- Among at most 255 notices no two have the same number. -/
theorem numberedTo_ne {x y : Notice} (h : numberedTo next (xs ++ x :: ys) = true) (few : (xs ++ x :: ys).length < 256)
    (before : y ∈ xs) : y.seq ≠ x.seq := by
  obtain ⟨front, between, rfl⟩ := List.append_of_mem before
  rw [List.append_assoc, List.cons_append] at h few
  obtain ⟨first, rest⟩ := numberedTo_cons.mp (numberedTo_suffix h)
  obtain ⟨later, -⟩ := numberedTo_cons.mp (numberedTo_suffix rest)
  intro same
  rw [same, ← later, BitVec.add_right_inj] at first
  have apart := congrArg BitVec.toNat first
  simp only [BitVec.toNat_ofNat, List.length_append, List.length_cons] at apart few
  omega

end

/-! ### The law of the queue (R157) -/

/-- The law of the Notice Queue, by its sent notices and those behind them. -/
structure Queued (q : NoticeQueue) (sent unsent : List Notice) : Prop where
  items : q.items = sent ++ unsent
  count : q.sentCount = sent.length
  allSent : ∀ x ∈ sent, x.sent = true
  noneSent : ∀ x ∈ unsent, x.sent = false
  held : q.items.length ≤ Config.noticeCapacity
  window : q.sentCount ≤ Config.noticeWindow
  numbers : numberedTo q.nextSeq q.items = true
  lost : q.lost ≤ Config.counterCeiling

theorem noticeLaw_iff {q : NoticeQueue} : NoticeLaw q ↔ ∃ sent unsent, Queued q sent unsent := by
  constructor
  · rintro ⟨held, window, within, allSent, noneSent, numbers, lost⟩
    exact ⟨_, _, (List.take_append_drop q.sentCount q.items).symm, (List.length_take_of_le within).symm, allSent, noneSent,
      held, window, numbers, lost⟩
  · rintro ⟨sent, unsent, items, count, allSent, noneSent, held, window, numbers, lost⟩
    refine ⟨held, window, ?_, ?_, ?_, numbers, lost⟩
    · simp [items, count]
    · rwa [items, count, List.take_left]
    · rwa [items, count, List.drop_left]

section
variable {q : NoticeQueue} {sent unsent : List Notice}

/-- Posting with room: the notice joins the unsent ones (R158). -/
theorem Queued.post (h : Queued q sent unsent) (b : NoticeBody) (room : q.items.length < Config.noticeCapacity) :
    Queued (postTo q b) sent (unsent ++ [⟨q.nextSeq, b, false⟩]) := by
  rw [postTo_room b room]
  exact {
    items := by rw [h.items, List.append_assoc]
    count := h.count
    allSent := h.allSent
    noneSent := fun x hx => (List.mem_append.mp hx).elim (h.noneSent x) fun new => by rw [List.mem_singleton.mp new]
    held := by simpa using room
    window := h.window
    numbers := numberedTo_append h.numbers b false
    lost := h.lost }

/-- Posting keeps the law (R158, R159). -/
theorem noticeLaw_postTo (h : NoticeLaw q) (b : NoticeBody) : NoticeLaw (postTo q b) := by
  by_cases room : q.items.length < Config.noticeCapacity
  · obtain ⟨sent, unsent, queued⟩ := noticeLaw_iff.mp h
    exact noticeLaw_iff.mpr ⟨_, _, queued.post b room⟩
  · obtain ⟨held, window, within, allSent, noneSent, numbers, -⟩ := h
    rw [postTo_full b (Nat.le_of_not_lt room)]
    exact ⟨held, window, within, allSent, noneSent, numbers, Nat.min_le_left _ _⟩

/-- The first unsent notice is sent while the window has room (R160). -/
theorem Queued.send {x : Notice} (h : Queued q sent (x :: unsent)) (room : q.sentCount < Config.noticeWindow) :
    Queued { q with items := sent ++ { x with sent := true } :: unsent, sentCount := q.sentCount + 1 }
      (sent ++ [{ x with sent := true }]) unsent where
  items := List.append_cons ..
  count := by simp [h.count]
  allSent y hy := (List.mem_append.mp hy).elim (h.allSent y) fun new => by rw [List.mem_singleton.mp new]
  noneSent y hy := h.noneSent y (List.mem_cons_of_mem x hy)
  held := by simpa [h.items] using h.held
  window := room
  numbers := by
    rw [← h.numbers, h.items]
    exact numberedTo_congr (by simp)
  lost := h.lost

/-- A sent notice stands among the sent ones, and so does what stands before it. -/
theorem Queued.sent_through {before after : List Notice} {x : Notice} (h : Queued q sent unsent)
    (items : q.items = before ++ x :: after) (isSent : x.sent = true) :
    ∃ rest, sent = before ++ x :: rest ∧ after = rest ++ unsent := by
  have notBehind : x ∉ unsent := fun behind => by simp [h.noneSent x behind] at isSent
  rcases List.append_eq_append_iff.mp (h.items.symm.trans items) with ⟨skipped, -, behind⟩ | ⟨rest, front, shared⟩
  · exact absurd (behind ▸ List.mem_append_right _ List.mem_cons_self) notBehind
  · cases rest with
    | nil =>
      rw [List.nil_append] at shared
      exact absurd (shared ▸ List.mem_cons_self) notBehind
    | cons y rest =>
      obtain ⟨rfl, rfl⟩ := List.cons.inj shared
      exact ⟨rest, front, rfl⟩

/-- A sent notice and those before it are removed (R161). -/
theorem Queued.acknowledge {before after : List Notice} {x : Notice} (h : Queued q sent unsent)
    (items : q.items = before ++ x :: after) (isSent : x.sent = true) :
    ∃ rest, Queued { q with items := after, sentCount := q.sentCount - (before.length + 1) } rest unsent := by
  obtain ⟨rest, rfl, rfl⟩ := h.sent_through items isSent
  refine ⟨rest, ?_⟩
  have held := h.held
  have window := h.window
  have numbers := h.numbers
  rw [items] at held numbers
  exact {
    items := rfl
    count := by simp [h.count]; omega
    allSent := fun y hy => h.allSent y (by simp [hy])
    noneSent := h.noneSent
    held := by simp only [List.length_append, List.length_cons] at held ⊢; omega
    window := by dsimp only; omega
    numbers := (numberedTo_cons.mp (numberedTo_suffix numbers)).2
    lost := h.lost }

/-- Every notice becomes unsent (R163). -/
theorem noticeLaw_rewound (h : NoticeLaw q) : NoticeLaw (rewound q) := by
  obtain ⟨held, -, -, -, -, numbers, lost⟩ := h
  refine ⟨by simpa [rewound] using held, Nat.zero_le _, Nat.zero_le _, ?_, ?_, ?_, lost⟩
  · simp [rewound]
  · simp [rewound]
  · rw [← numbers]
    exact numberedTo_congr (by simp [rewound])

/-- The loss report keeps the law: it posts, or does nothing (R162). -/
theorem noticeLaw_reportLost (h : NoticeLaw q) : NoticeLaw (reportLost q) := by
  unfold reportLost
  split
  · exact h
  · obtain ⟨held, window, within, allSent, noneSent, numbers, -⟩ := noticeLaw_postTo h (.overflow q.lost)
    exact ⟨held, window, within, allSent, noneSent, numbers, Nat.zero_le _⟩

end

theorem noticeLaw_afterReset (cause : ResetCause) : NoticeLaw (NoticeQueue.afterReset cause) := by
  unfold NoticeLaw
  cases cause <;> decide

/-- Settles O50: by the room in the queue, and the lost count by its ceiling. -/
theorem postingKeepsOrCountsTheNotice : Obligations.PostingKeepsOrCountsTheNotice := by
  unfold Obligations.PostingKeepsOrCountsTheNotice
  intro q b h
  refine ⟨fun room => ⟨postTo_room b room, noticeLaw_postTo h b⟩, fun full => ?_⟩
  have counted := postTo_full b full.ge
  refine ⟨fun below => ?_, fun ceiling => ?_⟩
  · rw [counted, show min Config.counterCeiling (q.lost + 1) = q.lost + 1 from Nat.min_eq_right below]
  · rw [counted, show min Config.counterCeiling (q.lost + 1) = q.lost by rw [ceiling]; rfl]

/-! ### ACK_NOTICES and REWIND_NOTICES (R161 to R163) -/

section
variable {n : BitVec 8} {before after : List Notice} {x : Notice}

theorem dropThrough_none {items : List Notice} (h : ∀ x ∈ items, x.sent = true → x.seq ≠ n) :
    dropThrough n items = none := by
  induction items with
  | nil => rfl
  | cons y ys ih =>
    obtain ⟨other, rest⟩ := List.forall_mem_cons.mp h
    rw [dropThrough, if_neg (by simpa using other), ih rest]
    rfl

/-- The notice named is the first with its number. -/
theorem dropThrough_append (other : ∀ y ∈ before, y.seq ≠ n) (isSent : x.sent = true) (named : x.seq = n) :
    dropThrough n (before ++ x :: after) = some (before.length + 1, after) := by
  induction before with
  | nil => exact if_pos (by simp [isSent, named])
  | cons y before ih =>
    obtain ⟨first, rest⟩ := List.forall_mem_cons.mp other
    rw [List.cons_append, dropThrough, if_neg (by simp [first]), ih rest]
    rfl

/-- The notices lost are reported where a notice has been removed (R162). -/
theorem reportLost_room {q : NoticeQueue} (room : q.items.length < Config.noticeCapacity) : reportLost q =
    if q.lost = 0 then q
    else { q with items := q.items ++ [⟨q.nextSeq, .overflow q.lost, false⟩], nextSeq := q.nextSeq + 1, lost := 0 } := by
  unfold reportLost
  rw [postTo_room _ room]

theorem performAckNotices_badLength {body : List Byte} (s : State) (h : body.length ≠ 1) :
    performAckNotices body s = refuse s .badLength := by
  unfold performAckNotices
  split
  · exact absurd rfl h
  · rfl

theorem performAckNotices_badValue (s : State) (h : ∀ x ∈ s.notices.items, x.sent = true → x.seq ≠ n) :
    performAckNotices [n] s = refuse s .badValue := by simp only [performAckNotices, dropThrough_none h]

theorem performAckNotices_named {s : State} (law : NoticeLaw s.notices) (items : s.notices.items = before ++ x :: after)
    (isSent : x.sent = true) (named : x.seq = n) : performAckNotices [n] s =
      { state := { s with notices := reportLost { s.notices with
          items := after, sentCount := s.notices.sentCount - (before.length + 1) } }
        body := [statusCode .ok] } := by
  obtain ⟨held, -, -, -, -, numbers, -⟩ := law
  rw [items] at held numbers
  have other : ∀ y ∈ before, y.seq ≠ n := fun y hy =>
    named ▸ numberedTo_ne numbers (Nat.lt_of_le_of_lt held (by decide)) hy
  simp only [performAckNotices, items, dropThrough_append other isSent named]

end

/-- Settles O51: ACK_NOTICES by what its body names, REWIND_NOTICES by its body. -/
theorem noticeRequestsAckAndRewind : Obligations.NoticeRequestsAckAndRewind := by
  unfold Obligations.NoticeRequestsAckAndRewind
  intro s seq body law q
  refine ⟨fun h len => takeRequest_replies h rfl (performAckNotices_badLength _ len), ?_, ?_,
    fun h some_byte => takeRequest_replies h rfl (if_neg some_byte), fun h empty => ?_⟩
  · rintro n rfl h unnamed
    exact takeRequest_replies h rfl (performAckNotices_badValue _ unnamed)
  · rintro n before x after rfl h items isSent named kept
    have room : kept.items.length < Config.noticeCapacity := by
      have held := law.1
      simp only [show s.notices.items = _ from items, List.length_append, List.length_cons] at held
      change after.length < _
      omega
    have taken := takeRequest_acts (act := fun v => { v with notices := reportLost kept }) h rfl
      (performAckNotices_named (s := s.taking) law items isSent named) rfl rfl
    rw [reportLost_room room] at taken
    exact taken
  · exact takeRequest_acts (act := fun v => { v with notices := rewound q }) h rfl (if_pos empty) rfl rfl

/-! ### The outbound transmitter (R160, R170, R174) -/

section
variable {before after : List Notice} {x : Notice}

/-- The notice offered is the oldest unsent one (R160). -/
theorem sendOldest_append (sent : ∀ y ∈ before, y.sent = true) (unsent : x.sent = false) :
    sendOldest (before ++ x :: after) = some (x, before ++ { x with sent := true } :: after) := by
  induction before with
  | nil => exact if_neg (by simp [unsent])
  | cons y before ih =>
    obtain ⟨first, rest⟩ := List.forall_mem_cons.mp sent
    rw [List.cons_append, sendOldest, if_pos first, ih rest]
    rfl

theorem sendOldest_none {items : List Notice} (sent : ∀ y ∈ items, y.sent = true) : sendOldest items = none := by
  induction items with
  | nil => rfl
  | cons y ys ih =>
    obtain ⟨first, rest⟩ := List.forall_mem_cons.mp sent
    rw [sendOldest, if_pos first, ih rest]
    rfl

end

section
variable {s : State} (awake : s.heldInReset = false)
include awake

theorem execReplySend_pending {r : PendingReply} {rest : List PendingReply} (idle : s.host.out = .idle)
    (pending : s.host.replies = r :: rest) : execReplySend s = .next { s with host := { s.host with
      replies := rest, out := .reply (hostFrameBytes r.frame.seq r.frame.kind r.frame.body) r.resets } } := by
  rw [execReplySend, unlessHeld_running awake, idle, pending]

/-- No reply begins on a busy transmitter, or without a pending reply (R174). -/
theorem execReplySend_nothing (h : s.host.out ≠ .idle ∨ s.host.replies = []) : execReplySend s = .next s := by
  rw [execReplySend, unlessHeld_running awake]
  split
  · next idle pending => simp [idle, pending] at h
  · rfl

/-- No notice begins on a busy transmitter, or ahead of a reply (R174). -/
theorem execNoticeSend_busy (h : s.host.out ≠ .idle ∨ s.host.replies ≠ []) : execNoticeSend s = .next s := by
  rw [execNoticeSend, unlessHeld_running awake]
  split
  · next idle noReply => simp [idle, noReply] at h
  · rfl

/-- On a free transmitter with no reply pending, the notice offered begins while the window has room (R160). -/
theorem execNoticeSend_offered {x : Notice} {items : List Notice} (idle : s.host.out = .idle)
    (noReply : s.host.replies = []) (room : s.notices.sentCount < Config.noticeWindow)
    (offered : sendOldest s.notices.items = some (x, items)) : execNoticeSend s = .next { s with
      notices := { s.notices with items := items, sentCount := s.notices.sentCount + 1 }
      host := { s.host with out := .notice (hostFrameBytes x.seq (noticeKind x.body) (noticeFields x.body)) } } := by
  rw [execNoticeSend, unlessHeld_running awake, idle, noReply]
  exact (if_pos room).trans (by rw [offered])

/-- Without room in the window, or without an unsent notice, none begins (R160). -/
theorem execNoticeSend_noneOffered (h : Config.noticeWindow ≤ s.notices.sentCount ∨ sendOldest s.notices.items = none) :
    execNoticeSend s = .next s := by
  rw [execNoticeSend, unlessHeld_running awake]
  split
  · split
    · next room =>
      rw [h.resolve_left (Nat.not_le.mpr room)]
    · rfl
  · rfl

theorem execReplySent_reply {bytes : List Byte} (sending : s.host.out = .reply bytes false) :
    execReplySent s = .next { s with host := { s.host with out := .idle, holding := s.host.holding.tail } } := by
  rw [execReplySent, unlessHeld_running awake, sending]

theorem execReplySent_other (other : ∀ bytes, s.host.out ≠ .reply bytes false) : execReplySent s = .next s := by
  rw [execReplySent, unlessHeld_running awake]
  split
  · next sending => exact absurd sending (other _)
  · rfl

theorem execNoticeFrameEnd_notice {bytes : List Byte} (sending : s.host.out = .notice bytes) :
    execNoticeFrameEnd s = .next { s with host := { s.host with out := .idle } } := by
  rw [execNoticeFrameEnd, unlessHeld_running awake, sending]

theorem execNoticeFrameEnd_other (other : ∀ bytes, s.host.out ≠ .notice bytes) : execNoticeFrameEnd s = .next s := by
  rw [execNoticeFrameEnd, unlessHeld_running awake]
  split
  · next sending => exact absurd sending (other _)
  · rfl

end

/-- Settles O52: by what the transmitter carries and what waits for it. -/
theorem outboundTransmitterSendsRepliesFirst : Obligations.OutboundTransmitterSendsRepliesFirst := by
  unfold Obligations.OutboundTransmitterSendsRepliesFirst
  intro s awake q
  refine ⟨fun r rest idle pending => ⟨execReplySend_pending awake idle pending,
      execNoticeSend_busy awake (.inr (by simp [pending]))⟩,
    fun busy => ⟨execReplySend_nothing awake (.inl busy), execNoticeSend_busy awake (.inl busy)⟩,
    fun idle noReply => ⟨execReplySend_nothing awake (.inr noReply), fun before x after items sent unsent room => ?_,
      fun h => execNoticeSend_noneOffered awake (h.imp_right sendOldest_none)⟩,
    fun bytes => execReplySent_reply awake, fun bytes => execNoticeFrameEnd_notice awake, execReplySent_other awake,
    execNoticeFrameEnd_other awake⟩
  have offered := sendOldest_append (after := after) sent unsent
  exact execNoticeSend_offered awake idle noReply room (by rw [show s.notices.items = _ from items, offered])

end Sys2Proof.Machine
end

-- ==== Proofs: Buffer laws ====
section
/-! PROOFS. Buffer laws: what every command does to staging memory, to the Notice Queue and to the Host Link, and the laws it
keeps (R157, R170, R172). -/

namespace Sys2Proof.Machine

/-! ### Jobs and lanes post notices, and leave the host link -/

/-- The host link is left as it is, and the Notice Queue keeps its law. -/
structure NoticeStep (s t : State) : Prop where
  host : t.host = s.host
  law : NoticeLaw s.notices → NoticeLaw t.notices

namespace NoticeStep

theorem trans {s t u : State} (h : NoticeStep s t) (h' : NoticeStep t u) : NoticeStep s u :=
  ⟨h'.host.trans h.host, fun law => h'.law (h.law law)⟩

theorem of_eq {s t : State} (host : t.host = s.host) (notices : t.notices = s.notices) : NoticeStep s t :=
  ⟨host, fun law => notices ▸ law⟩

theorem refl (s : State) : NoticeStep s s := of_eq rfl rfl

/-- One notice is posted. -/
theorem posts {s t : State} {b : NoticeBody} (host : t.host = s.host) (notices : t.notices = postTo s.notices b) :
    NoticeStep s t :=
  ⟨host, fun law => notices ▸ noticeLaw_postTo law b⟩

/-! A change that leaves the notices or posts one, in front of such a step or behind it. -/

theorem after_eq {s u t : State} (h : NoticeStep u t) (host : u.host = s.host) (notices : u.notices = s.notices) :
    NoticeStep s t := (of_eq host notices).trans h

theorem after_post {s u t : State} {b : NoticeBody} (h : NoticeStep u t) (host : u.host = s.host)
    (notices : u.notices = postTo s.notices b) : NoticeStep s t := (posts host notices).trans h

theorem then_eq {s u t : State} (h : NoticeStep s u) (host : t.host = u.host) (notices : t.notices = u.notices) :
    NoticeStep s t := h.trans (of_eq host notices)

/-! #### Scheduling -/

section
variable (s : State) (l : LaneId) (c : CtxId)

theorem freeCtx (r : EndReason) : NoticeStep s (s.freeCtx c r) := posts (freeCtx_host ..) (freeCtx_notices ..)

theorem select : NoticeStep s (s.select l) := of_eq (select_leaves s l).host (select_leaves s l).notices

theorem selectIf (was : JobState) : NoticeStep s (s.selectIf was l) := by
  unfold State.selectIf
  split
  · exact select s l
  · exact refl s

theorem splice : NoticeStep s (s.splice l c) := by
  unfold State.splice
  dsimp only
  split
  · exact of_eq rfl rfl
  · split <;> exact of_eq rfl rfl

theorem withdraw : NoticeStep s (s.withdraw c) := by
  rcases withdraw_cases s c with ⟨-, eq⟩ | ⟨-, eq⟩ | ⟨-, eq⟩ | eq <;> rw [eq]
  · exact of_eq rfl rfl
  · exact of_eq rfl rfl
  · exact splice ..
  · exact refl s

theorem endJobs (goes : Context → Bool) (reason : EndReason) : NoticeStep s (s.endJobs l goes reason) := by
  unfold State.endJobs
  generalize allCtxs = cs
  induction cs generalizing s with
  | nil => exact refl s
  | cons c cs ih =>
    rw [List.foldl_cons]
    refine NoticeStep.trans ?_ (ih _)
    dsimp only
    split
    · exact (withdraw s c).trans (freeCtx ..)
    · exact refl s

theorem suspendAtBoundary : NoticeStep s (s.suspendAtBoundary l c) := (select _ l).after_post rfl rfl

theorem evalBoundary : NoticeStep s (s.evalBoundary l) := by
  rcases evalBoundary_cases s l with eq | ⟨c, -, -, ⟨-, eq⟩ | ⟨-, k, h, -, -, eq⟩⟩ <;> rw [eq]
  · exact refl s
  · exact suspendAtBoundary s l c
  · exact of_eq rfl rfl

theorem drain : NoticeStep s (s.drain l c) := (select _ l).after_eq rfl rfl

/-! #### The transmitter and the controller -/

theorem advance (last : Bool) : NoticeStep s (s.advance l c last) := by
  unfold State.advance
  dsimp only
  split
  · split
    · exact (evalBoundary _ l).after_eq rfl rfl
    · exact (drain _ l c).after_eq rfl rfl
  · exact of_eq rfl rfl

theorem cancelCut : NoticeStep s (s.cancelCut l) := by
  unfold State.cancelCut
  split
  · split <;> exact of_eq rfl rfl
  · exact refl s

theorem enterFault (why : FaultCause) (cause : LaneCause) : NoticeStep s (s.enterFault l why cause) := by
  have faulted : NoticeStep s (s.faulted l why cause) := posts rfl rfl
  have rolled := rollback_leaves (s := s.faulted l why cause) (l := l)
  exact faulted.then_eq rolled.host rolled.notices

theorem openLane : NoticeStep s (s.openLane l) := posts rfl rfl

theorem synchronise (window : Nat) (id : Word16) : NoticeStep s (s.synchronise l window id) := by
  unfold State.synchronise
  dsimp only
  split
  · exact (evalBoundary _ l).after_post rfl rfl
  · exact (select _ l).after_post rfl rfl

theorem modCtl (f : Controller → Controller) : NoticeStep s (s.modCtl l f) := of_eq rfl rfl

theorem postLaneState (cause : LaneCause) : NoticeStep s (s.postLaneState l cause) := posts rfl rfl

theorem stopped : NoticeStep s (s.stopped l) := of_eq rfl rfl

theorem restarted (window : Nat) (id : Word16) : NoticeStep s (s.restarted l window id) := by
  have ended := endJobs (s.restarting l window id) l (fun x => x.started) .stationRestart
  exact trans (ended.after_eq rfl rfl) ((modCtl _ l _).trans (postLaneState _ l _))

theorem stationRestart (window : Nat) (id : Word16) : NoticeStep s (s.stationRestart l window id) :=
  (restarted s l window id).trans (select _ l)

theorem resetLane : NoticeStep s (s.resetLane l) := by
  have ended := endJobs (s.stopping l) l (fun _ => true) .laneReset
  rw [resetLane_eq]
  exact trans (ended.after_eq rfl rfl) ((stopped _ l).trans (postLaneState _ l _))

theorem account (e : InFlight) : NoticeStep s (s.account l e) := by
  obtain ⟨q, c, what⟩ := e
  cases what with
  | cancel => exact freeCtx s c .aborted
  | data k f flags =>
    have acked : NoticeStep s (s.segmentAcked l c k) := by
      unfold State.segmentAcked
      split
      · exact posts rfl rfl
      · exact of_eq rfl rfl
    cases last : flags.last with
    | false => rw [account_notLast s l q c k f last]; exact refl s
    | true =>
      rw [account_last s l q c k f last]
      split
      · exact acked.trans (freeCtx ..)
      · exact acked

theorem accounts (es : List InFlight) : NoticeStep s (es.foldl (fun s e => s.account l e) s) := by
  induction es generalizing s with
  | nil => exact refl s
  | cons e es ih => exact (account s l e).trans (ih _)

theorem takeAck (n : Byte) : NoticeStep s (s.takeAck l n) := by
  rcases takeAck_cases s l n with eq | ⟨removed, rest, -, -, eq⟩ <;> rw [eq]
  · exact refl s
  · obtain ⟨timer, eq⟩ := acknowledge_eq s l removed rest
    have counted := accounts (s.modTx l fun t => { t with inFlight := rest }) l removed
    rw [eq]
    exact then_eq (counted.after_eq rfl rfl) rfl rfl

theorem takeHello (window : Byte) (id : Word16) : NoticeStep s (s.takeHello l window id) := by
  rcases takeHello_cases s l window id with eq | ⟨-, -, ⟨-, eq⟩ | ⟨-, eq⟩⟩ <;> rw [eq]
  · exact refl s
  · exact synchronise ..
  · exact stationRestart ..

theorem takeHold : NoticeStep s (s.takeHold l) := by
  unfold State.takeHold
  split
  · exact posts rfl rfl
  all_goals exact refl s

theorem storeReply (bit : Bool) (r : Return) : NoticeStep s (s.storeReply l bit r) := by
  unfold State.storeReply
  dsimp only
  split
  · exact of_eq rfl rfl
  · split
    · split
      · exact posts rfl rfl
      · exact of_eq rfl rfl
    · exact of_eq rfl rfl

theorem takeReply (bit : Byte) (r : Return) : NoticeStep s (s.takeReply l bit r) := by
  unfold State.takeReply
  split
  · exact storeReply ..
  · exact storeReply ..
  all_goals exact refl s

theorem probeExpiry : NoticeStep s (s.probeExpiry l) := by
  unfold State.probeExpiry
  split
  · split
    · exact of_eq rfl rfl
    · exact enterFault ..
  · exact refl s

theorem holdExpiry : NoticeStep s (s.holdExpiry l) := by
  unfold State.holdExpiry
  split
  · exact enterFault ..
  · exact refl s

end

section
variable {s t : State} {l : LaneId} {es : List InFlight}

theorem dataCut (h : s.dataCut l = .ok t) : NoticeStep s t := by
  unfold State.dataCut at h
  split at h
  · split at h
    · unfold State.cutData at h
      dsimp only at h
      split at h
      · cases h
      · split at h
        · cases h
        · cases h
          exact (advance ..).after_eq rfl rfl
    · cases h; exact refl s
  · cases h; exact refl s

theorem retransmit (h : s.retransmit l es = .ok t) : NoticeStep s t := by
  obtain ⟨fs, -, rfl⟩ := retransmit_ok h
  exact of_eq rfl rfl

theorem retryOr {again : State → Except Fault State} (h : s.retryOr l again = .ok t)
    (ha : ∀ u, again u = .ok t → NoticeStep u t) : NoticeStep s t := by
  rcases retryOr_ok h with ⟨-, rfl⟩ | ⟨-, ok⟩
  · exact (enterFault ..).after_eq rfl rfl
  · exact (ha _ ok).after_eq rfl rfl

/-- A retransmission that restarts the ack timer. -/
theorem retransmitTimed (h : (match s.retransmit l es with
      | .error e => .error e
      | .ok u => .ok (u.startAckTimer l)) = Except.ok t) : NoticeStep s t := by
  split at h
  · cases h
  · next ok => cases h; exact (retransmit ok).then_eq rfl rfl

theorem takeNak {n : Byte} (h : s.takeNak l n = .ok t) : NoticeStep s t := by
  unfold State.takeNak at h
  split at h
  · split at h
    · exact retryOr h fun u ok => retransmitTimed ok
    · exact retryOr h fun u ok => by cases ok; exact of_eq rfl rfl
    all_goals cases h; exact refl s
  · cases h; exact refl s

theorem ackExpiry (h : s.ackExpiry l = .ok t) : NoticeStep s t := by
  unfold State.ackExpiry at h
  split at h
  · exact retryOr h fun u ok => retransmitTimed ok
  · cases h; exact refl s

theorem takeReady (h : s.takeReady l = .ok t) : NoticeStep s t := by
  unfold State.takeReady at h
  split at h
  · dsimp only at h
    split at h
    · cases h; exact posts rfl rfl
    · split at h
      · cases h; exact posts rfl rfl
      · split at h
        · cases h
        · next ok =>
          cases h
          exact then_eq ((retransmit ok).after_post rfl rfl) rfl rfl
  all_goals cases h; exact refl s

end

/-! #### Performing a request -/

section
variable (body : List Byte) (s : State)

theorem onJob {act : CtxId → Answer} (h : ∀ c, NoticeStep s (act c).state) : NoticeStep s (onJob body s act).state := by
  unfold Machine.onJob
  split
  · exact refl s
  · split
    · exact refl s
    · exact h _

theorem onLane {act : LaneId → Answer} (h : ∀ l, NoticeStep s (act l).state) :
    NoticeStep s (onLane body s act).state := by
  unfold Machine.onLane
  split
  · split
    · exact refl s
    · exact h _
  · exact refl s

/-- A request whose body must be empty. -/
theorem emptyBody {a : Answer} {st : Status} (h : NoticeStep s a.state) :
    NoticeStep s (if body = [] then a else refuse s st).state := by
  split
  · exact h
  · exact refl s

theorem performWrite : NoticeStep s (performWrite body s).state := by
  unfold Machine.performWrite
  split
  · dsimp only
    split
    · exact refl s
    · split
      · exact refl s
      · split
        · exact refl s
        · exact of_eq rfl rfl
  · exact refl s

theorem performRead : NoticeStep s (performRead body s).state := by
  unfold Machine.performRead
  split
  · dsimp only
    split
    · exact refl s
    · split <;> exact refl s
  · exact refl s

theorem performSubmit : NoticeStep s (performSubmit body s).state := by
  unfold Machine.performSubmit
  split
  · split
    · exact refl s
    · split
      · exact refl s
      · split
        · split
          · exact refl s
          · split
            · exact refl s
            · split
              · exact refl s
              · split
                · exact refl s
                · exact (select ..).after_eq rfl rfl
        · exact refl s
  · exact refl s

theorem suspendJob (c : CtxId) : NoticeStep s (suspendJob s c).state := by
  unfold Machine.suspendJob
  split
  · exact (withdraw s c).then_eq rfl rfl
  · exact (withdraw s c).then_eq rfl rfl
  · exact of_eq rfl rfl
  all_goals exact refl s

theorem resumeJob (c : CtxId) : NoticeStep s (resumeJob s c).state := by
  unfold Machine.resumeJob
  split
  · exact (select ..).after_eq rfl rfl
  · split
    · exact of_eq rfl rfl
    · exact refl s
  all_goals exact refl s

theorem abortJob (c : CtxId) : NoticeStep s (abortJob s c).state := by
  unfold Machine.abortJob
  split
  · exact refl s
  · split
    · refine ((withdraw s c).then_eq ?_ ?_).trans (selectIf _ (s.ctx c).lane (s.ctx c).state) <;> rfl
    · exact ((withdraw s c).trans (freeCtx ..)).trans (selectIf _ (s.ctx c).lane (s.ctx c).state)

theorem performLaneConfig : NoticeStep s (performLaneConfig body s).state := by
  unfold Machine.performLaneConfig
  split
  · split
    · exact refl s
    · split
      · exact refl s
      · split
        · exact of_eq rfl rfl
        · exact of_eq rfl rfl
        all_goals exact refl s
  · exact refl s

theorem performLaneOpen : NoticeStep s (performLaneOpen body s).state := onLane body s fun l => by
  split
  · exact openLane s l
  · exact openLane s l
  all_goals exact refl s

theorem performFetch : NoticeStep s (performFetch body s).state := onLane body s fun l => by
  split
  · exact refl s
  · exact of_eq rfl rfl

theorem performAckNotices : NoticeStep s (performAckNotices body s).state := by
  unfold Machine.performAckNotices
  split
  · split
    · exact refl s
    · next removed rest dropped =>
      refine ⟨rfl, fun law => noticeLaw_reportLost ?_⟩
      obtain ⟨sent, unsent, queued⟩ := noticeLaw_iff.mp law
      obtain ⟨before, x, items, rfl, isSent, -⟩ := dropThrough_some dropped
      obtain ⟨left, queued⟩ := queued.acknowledge items isSent
      exact noticeLaw_iff.mpr ⟨_, _, queued⟩
  · exact refl s

theorem performRewindNotices : NoticeStep s (performRewindNotices body s).state :=
  emptyBody body s ⟨rfl, noticeLaw_rewound⟩

end

end NoticeStep

/-! ### The host link (R170 to R173) -/

section
variable {h : HostLink}

theorem hostLaw_holding {holding : List Held} (law : HostLaw h) (few : holding.length ≤ Config.holdingCapacity)
    {t : HostLink} (held : t.holding = holding) (memory : t.memory = h.memory) : HostLaw t := by
  obtain ⟨-, records, distinct⟩ := law
  exact ⟨held ▸ few, memory ▸ records, memory ▸ distinct⟩

/-- The holding list and the reply memory are all that the law reads. -/
theorem hostLaw_congr {t : HostLink} (law : HostLaw h) (holding : t.holding = h.holding) (memory : t.memory = h.memory) :
    HostLaw t := hostLaw_holding law law.1 holding memory

theorem foldl_joinHolding_length {holding : List Held} (rs : List Request)
    (few : holding.length ≤ Config.holdingCapacity) :
    (rs.foldl joinHolding holding).length ≤ Config.holdingCapacity := by
  induction rs generalizing holding with
  | nil => exact few
  | cons r rs ih => exact ih (joinHolding_length holding r few)

theorem hostLaw_huntOn (law : HostLaw h) (gap : Bool) (bytes : List Byte) : HostLaw (huntOn h gap bytes) :=
  hostLaw_holding law (foldl_joinHolding_length _ law.1) rfl rfl

theorem hostLaw_taken (law : HostLaw h) : HostLaw { h with holding := markTaken h.holding } :=
  hostLaw_holding law ((markTaken_length _).trans_le law.1) rfl rfl

/-- A record added keeps the bound of the reply memory: the oldest of four has gone (R172). -/
theorem remember_length (m : Record) {memory : List Record} (few : memory.length ≤ Config.memoryCapacity) :
    (remember memory m).length ≤ Config.memoryCapacity := by
  have kept : (memory.filter fun x => x.seq != m.seq).length ≤ memory.length := List.length_filter_le ..
  unfold remember
  dsimp only
  rw [List.length_append, List.length_singleton]
  split
  · assumption
  · rw [List.length_tail]
    simp only [Config.memoryCapacity] at few ⊢
    omega

/-- A record added is the only one with its seq (R173). -/
theorem remember_nodup (m : Record) {memory : List Record} (distinct : (memory.map (·.seq)).Nodup) :
    ((remember memory m).map (·.seq)).Nodup := by
  have other : ∀ x ∈ memory.filter (fun x => x.seq != m.seq), x.seq ≠ m.seq := fun x hx =>
    by simpa using (List.mem_filter.mp hx).2
  have kept := distinct.sublist (List.filter_sublist (p := fun x : Record => x.seq != m.seq) |>.map (·.seq))
  unfold remember
  generalize memory.filter (fun x => x.seq != m.seq) = records at other kept
  dsimp only
  rw [List.map_append, List.map_singleton]
  refine List.nodup_append.mpr ⟨?_, List.nodup_singleton _, ?_⟩
  · split
    · exact kept
    · exact kept.sublist ((List.tail_sublist _).map _)
  · rintro _ hx _ hy rfl
    obtain ⟨x, hx, eq⟩ := List.mem_map.mp hx
    refine other x ?_ (eq.trans (List.mem_singleton.mp hy))
    split at hx
    · exact hx
    · exact List.mem_of_mem_tail hx

theorem hostLaw_answer (law : HostLaw h) (r : Request) (kind : Byte) (body : List Byte) (resets : Bool) :
    HostLaw (h.answer r kind body resets) := by
  obtain ⟨held, records, distinct⟩ := law
  exact ⟨held, remember_length _ records, remember_nodup _ distinct⟩

end

/-! ### Every command keeps the laws of notices and host link -/

/-- The Notice Queue and the Host Link keep their laws. -/
def BufferStep (s t : State) : Prop := (NoticeLaw s.notices → NoticeLaw t.notices) ∧ (HostLaw s.host → HostLaw t.host)

section
variable {s t : State}

theorem BufferStep.refl (s : State) : BufferStep s s := ⟨id, id⟩

theorem NoticeStep.buffers (h : NoticeStep s t) : BufferStep s t := ⟨h.law, fun law => h.host ▸ law⟩

/-- The host link alone changes. -/
theorem BufferStep.of_host {h : HostLink} (law : HostLaw s.host → HostLaw h) : BufferStep s { s with host := h } :=
  ⟨id, law⟩

theorem bufferStep_partReset (s : State) (cause : ResetCause) (straps : BitVec 2) (keep : Bool) :
    BufferStep s (s.partReset cause straps keep) :=
  ⟨fun _ => noticeLaw_afterReset cause, fun _ => ⟨Nat.zero_le _, Nat.zero_le _, List.nodup_nil⟩⟩

/-- A request command does to the notices what performing the request does, and its reply is recorded (R171 to R173). -/
theorem takeRequest_buffers {r : Request} {k : Byte} {perform : State → Answer}
    (h : takeRequest s r k perform = .next t) (hp : ∀ v, NoticeStep v (perform v).state) : BufferStep s t := by
  rcases takeRequest_next h with ⟨rfl, -⟩ | ⟨-, -, frame, -, rfl⟩ | ⟨-, -, -, a, rfl, rfl⟩
  · exact .refl _
  · exact .of_host fun law => hostLaw_congr (hostLaw_taken law) rfl rfl
  · obtain ⟨host, law⟩ := hp s.taking
    refine ⟨law, fun hostLaw => hostLaw_answer ?_ ..⟩
    exact host ▸ hostLaw_taken hostLaw

theorem unlessHeld_buffers {e : Host.Outcome State Fault Refusal} (h : unlessHeld s e = .next t)
    (he : e = .next t → BufferStep s t) : BufferStep s t := by
  rcases unlessHeld_next.mp h with ⟨-, rfl⟩ | ⟨-, h⟩
  · exact .refl _
  · exact he h

theorem onFrame_buffers {l : LaneId} {frame : List Byte} {owner : State → Except Fault State}
    (h : onFrame s l frame owner = .next t) (ho : ∀ v, owner v = .ok t → NoticeStep v t) : BufferStep s t := by
  rcases onFrame_next h with rfl | ⟨u, hu, ok⟩
  · exact .refl _
  · rcases handOn_some hu with rfl | ⟨rx, rfl⟩
    · exact (ho _ ok).buffers
    · exact ((NoticeStep.of_eq rfl rfl).trans (ho _ ok)).buffers

/-- A station frame whose owner never stops the part. -/
theorem onFrame_buffers_total {l : LaneId} {frame : List Byte} {owner : State → State}
    (h : onFrame s l frame (fun v => .ok (owner v)) = .next t) (ho : ∀ v, NoticeStep v (owner v)) : BufferStep s t :=
  onFrame_buffers h fun v ok => by cases ok; exact ho v

theorem execNoticeSend_buffers (h : execNoticeSend s = .next t) : BufferStep s t := by
  refine unlessHeld_buffers h fun e => ?_
  split at e
  · split at e
    · next room =>
      split at e
      · next x items offered =>
        cases e
        refine ⟨fun law => ?_, fun law => hostLaw_congr law rfl rfl⟩
        obtain ⟨sent, unsent, queued⟩ := noticeLaw_iff.mp law
        cases unsent with
        | nil =>
          rw [queued.items, List.append_nil, sendOldest_none queued.allSent] at offered
          cases offered
        | cons y unsent =>
          rw [queued.items, sendOldest_append queued.allSent (queued.noneSent y List.mem_cons_self)] at offered
          cases offered
          exact noticeLaw_iff.mpr ⟨_, _, queued.send room⟩
      · cases e; exact .refl _
    · cases e; exact .refl _
  · cases e; exact .refl _

/-- A command that answers a next state keeps the laws of the Notice Queue and the Host Link. -/
theorem exec_buffers {c : Instr} (h : exec c s = .next t) : BufferStep s t := by
  cases c with
  | identify | reset | pinMap => exact takeRequest_buffers h fun v => .emptyBody _ v (.refl v)
  | write seq body => exact takeRequest_buffers h (.performWrite body)
  | read seq body => exact takeRequest_buffers h (.performRead body)
  | submit seq body => exact takeRequest_buffers h (.performSubmit body)
  | suspend seq body => exact takeRequest_buffers h fun v => .onJob body v (.suspendJob v)
  | resume seq body => exact takeRequest_buffers h fun v => .onJob body v (.resumeJob v)
  | abort seq body => exact takeRequest_buffers h fun v => .onJob body v (.abortJob v)
  | jobStatus seq body => exact takeRequest_buffers h fun v => .onJob body v fun _ => .refl v
  | laneConfig seq body => exact takeRequest_buffers h (.performLaneConfig body)
  | laneOpen seq body => exact takeRequest_buffers h (.performLaneOpen body)
  | laneReset seq body => exact takeRequest_buffers h fun v => .onLane body v (.resetLane v)
  | laneStatus seq body => exact takeRequest_buffers h fun v => .onLane body v fun _ => .refl v
  | fetch seq body => exact takeRequest_buffers h (.performFetch body)
  | ackNotices seq body => exact takeRequest_buffers h (.performAckNotices body)
  | rewindNotices seq body => exact takeRequest_buffers h (.performRewindNotices body)
  | unknownKindRequest seq kind body =>
    simp only [exec, execUnknownKindRequest] at h
    split at h
    · cases h; exact .refl _
    · exact takeRequest_buffers h fun v => .refl v
  | hostFrameReceived | gapDiscard =>
    exact unlessHeld_buffers h fun e => by cases e; exact .of_host fun law => hostLaw_huntOn law ..
  | replySend | noticeFrameEnd =>
    refine unlessHeld_buffers h fun e => ?_
    split at e <;> cases e
    · exact .of_host fun law => hostLaw_congr law rfl rfl
    · exact .refl _
  | replySent =>
    refine unlessHeld_buffers h fun e => ?_
    split at e <;> cases e
    · refine .of_host fun law => hostLaw_holding law ?_ rfl rfl
      exact ((List.tail_sublist _).length_le).trans law.1
    · exact .refl _
  | noticeSend => exact execNoticeSend_buffers h
  | hostRequestReset straps =>
    refine unlessHeld_buffers h fun e => ?_
    split at e <;> cases e
    · exact bufferStep_partReset ..
    · exact .refl _
  | powerOn straps =>
    simp only [exec, execPowerOn] at h
    split at h <;> cases h
    · exact ⟨id, id⟩
    · exact bufferStep_partReset ..
  | resetnLow =>
    exact unlessHeld_buffers h fun e => by cases e; exact ⟨id, fun law => hostLaw_congr law rfl rfl⟩
  | resetPin straps =>
    simp only [exec, execResetPin] at h
    split at h <;> cases h
    · exact bufferStep_partReset ..
    · exact .refl _
  | hello l window id => exact onFrame_buffers_total h fun v => .takeHello v l window id
  | ack l n => exact onFrame_buffers_total h fun v => .takeAck v l n
  | nak l n => exact onFrame_buffers h fun v => .takeNak
  | hold l => exact onFrame_buffers_total h fun v => .takeHold v l
  | ready l => exact onFrame_buffers h fun v => .takeReady
  | reply l bit tag code body =>
    simp only [exec, execReply] at h
    split at h
    · exact onFrame_buffers_total h fun v => .takeReply v l bit _
    · cases h; exact .refl _
  | laneFrameDiscard | laneFrameSend => exact unlessHeld_buffers h fun e => by cases e; exact ⟨id, id⟩
  | probeTimerExpiry l => exact unlessHeld_buffers h fun e => by cases e; exact (NoticeStep.probeExpiry s l).buffers
  | holdTimerExpiry l => exact unlessHeld_buffers h fun e => by cases e; exact (NoticeStep.holdExpiry s l).buffers
  | ackTimerExpiry l => exact unlessHeld_buffers h fun e => (NoticeStep.ackExpiry (outcomeOf_next.mp e)).buffers
  | dataCut l => exact unlessHeld_buffers h fun e => (NoticeStep.dataCut (outcomeOf_next.mp e)).buffers
  | cancelCut l => exact unlessHeld_buffers h fun e => by cases e; exact (NoticeStep.cancelCut s l).buffers

/-! ### Every command keeps the form of staging memory (R28, R36) -/

theorem memoryLaw_performWrite (body : List Byte) (law : MemoryLaw s) : MemoryLaw (performWrite body s).state := by
  unfold performWrite
  split
  · dsimp only
    split
    · exact law
    · split
      · exact law
      · next inside =>
        split
        · exact law
        · exact writeBytes_wf law _ (Nat.le_of_not_lt inside)
  · exact law

theorem memoryLaw_partReset (cause : ResetCause) (straps : BitVec 2) (keep : Bool) (law : MemoryLaw s) :
    MemoryLaw (s.partReset cause straps keep) := by
  cases keep
  · exact reset_memoryWf
  · exact law

/-- WRITE places its bytes in the form, a part reset keeps or clears the memory, and every other command leaves it. -/
theorem exec_memoryLaw {c : Instr} (h : exec c s = .next t) (law : MemoryLaw s) : MemoryLaw t := by
  by_cases write : ∃ seq body, c = .write seq body
  · obtain ⟨seq, body, rfl⟩ := write
    rcases takeRequest_next h with ⟨rfl, -⟩ | ⟨-, -, frame, -, rfl⟩ | ⟨-, -, -, answer, rfl, rfl⟩
    · exact law
    · exact law
    · exact memoryLaw_performWrite (s := s.taking) body law
  by_cases reset : ∃ straps, c = .hostRequestReset straps ∨ c = .powerOn straps ∨ c = .resetPin straps
  · obtain ⟨straps, rfl | rfl | rfl⟩ := reset
    · rcases unlessHeld_next.mp h with ⟨-, rfl⟩ | ⟨-, e⟩
      · exact law
      · split at e <;> cases e
        · exact memoryLaw_partReset _ _ _ law
        · exact law
    · simp only [exec, execPowerOn] at h
      split at h <;> cases h
      · exact law
      · exact memoryLaw_partReset _ _ _ law
    · simp only [exec, execResetPin] at h
      split at h <;> cases h
      · exact memoryLaw_partReset _ _ _ law
      · exact law
  · have left := exec_mem (fun seq body eq => write ⟨seq, body, eq⟩)
      (fun straps => ⟨fun eq => reset ⟨straps, .inl eq⟩, fun eq => reset ⟨straps, .inr (.inl eq)⟩,
        fun eq => reset ⟨straps, .inr (.inr eq)⟩⟩) h
    unfold MemoryLaw
    rwa [left]

end

/-- Settles O55: a step is one command, which keeps the three laws each by itself. -/
theorem stepKeepsTheBufferLaws : Obligations.StepKeepsTheBufferLaws := by
  unfold Obligations.StepKeepsTheBufferLaws
  intro s t h
  unfold step at h
  split at h
  · cases h; exact ⟨id, id, id⟩
  · next c rest _ =>
    have taken := exec_buffers (s := { s with pending := rest }) h
    exact ⟨exec_memoryLaw (s := { s with pending := rest }) h, taken⟩

end Sys2Proof.Machine
end

-- ==== Proofs: Host hunter ====
section
/-! PROOFS. The receive hunter: host link frames found behind noise, bytes that come in pieces, damaged frames and gaps (R168
to R170, R180, R181). -/

namespace Sys2Proof.Machine

/-! ### What stands behind a marker on HRXD (R168, R181) -/

/-- What stands behind the marker of a request's frame. -/
def framed (r : Request) : List Byte := hostCovered r.seq r.kind r.body ++ crcBytes (hostCovered r.seq r.kind r.body)

theorem hostFrameBytes_eq (seq kind : Byte) (body : List Byte) :
    hostFrameBytes seq kind body = Config.marker :: framed ⟨seq, kind, body⟩ := rfl

/-- Two bytes read as a word are the bytes that carry it. -/
theorem bytes16_le16 (lo hi : Byte) : bytes16 (le16 lo hi) = [lo, hi] := by
  have low : (le16 lo hi).extractLsb' 0 8 = lo := BitVec.extractLsb'_append_eq_right
  have high : (le16 lo hi).extractLsb' 8 8 = hi := BitVec.extractLsb'_append_eq_left
  rw [bytes16, low, high]

/-- The length or the CRC of the frame fails its test, with as much of it there as the test needs (R169). -/
def damaged (lo hi : Byte) (more : List Byte) : Prop :=
  (le16 lo hi).toNat < 2 ∨ 522 < (le16 lo hi).toNat ∨ ((le16 lo hi).toNat + 2 ≤ more.length ∧
    crcBytes (lo :: hi :: more.take (le16 lo hi).toNat) ≠ (more.drop (le16 lo hi).toNat).take 2)

section
variable {lo hi : Byte} {more bytes rest : List Byte} {r : Request}

theorem scanHostFrame_damaged (h : damaged lo hi more) : scanHostFrame (lo :: hi :: more) = .bad := by
  unfold scanHostFrame
  dsimp only
  by_cases range : (le16 lo hi).toNat < 2 ∨ 522 < (le16 lo hi).toNat
  · exact if_pos range
  · obtain ⟨there, crc⟩ := (or_assoc.mpr h).resolve_left range
    rw [if_neg range, if_neg (by omega), if_neg crc]

/-- A frame that passes its tests is read as it was sent, and what comes behind it is left (R181). -/
theorem scanHostFrame_framed (fits : r.body.length ≤ 520) (rest : List Byte) :
    scanHostFrame (framed r ++ rest) = .complete r rest := by
  obtain ⟨seq, kind, body⟩ := r
  dsimp only at fits
  have size : (BitVec.ofNat 16 (body.length + 2)).toNat = (seq :: kind :: body).length := by
    rw [BitVec.toNat_ofNat, List.length_cons, List.length_cons]
    omega
  have last : ((crcBytes (hostCovered seq kind body)) ++ rest).take 2 = crcBytes (hostCovered seq kind body) :=
    List.take_left' (crcBytes_length _)
  have split : framed ⟨seq, kind, body⟩ ++ rest = natBytes16 (body.length + 2) ++
      (seq :: kind :: body ++ (crcBytes (hostCovered seq kind body) ++ rest)) := by
    simp only [framed, hostCovered, List.append_assoc, List.cons_append]
  rw [split]
  change scanHostFrame (_ :: _ :: (seq :: kind :: body ++ _)) = _
  unfold scanHostFrame
  simp only [le16_bytes16, size, List.take_left, List.drop_left, last]
  rw [if_neg (by simp only [List.length_cons]; omega),
    if_neg (by simp only [List.length_append, crcBytes_length]; omega), List.drop_length_add_append,
    List.drop_left' (crcBytes_length _)]
  exact if_pos rfl

/-- Bytes that pass the tests are a frame and what comes behind it. -/
theorem framed_of_passed (low : 2 ≤ (le16 lo hi).toNat) (high : (le16 lo hi).toNat ≤ 522)
    (there : (le16 lo hi).toNat + 2 ≤ more.length)
    (crc : crcBytes (lo :: hi :: more.take (le16 lo hi).toNat) = (more.drop (le16 lo hi).toNat).take 2) :
    ∃ r rest, r.body.length ≤ 520 ∧ lo :: hi :: more = framed r ++ rest := by
  have parts : more = more.take (le16 lo hi).toNat ++ ((more.drop (le16 lo hi).toNat).take 2 ++
      (more.drop (le16 lo hi).toNat).drop 2) := by rw [List.take_append_drop, List.take_append_drop]
  have size : (more.take (le16 lo hi).toNat).length = (le16 lo hi).toNat := List.length_take_of_le (by omega)
  rw [← crc] at parts
  generalize more.take (le16 lo hi).toNat = content at parts size
  match content, size with
  | [], size | [_], size => simp only [List.length_cons, List.length_nil] at size; omega
  | seq :: kind :: body, size =>
    change body.length + 2 = _ at size
    have covered : hostCovered seq kind body = lo :: hi :: seq :: kind :: body := by
      rw [hostCovered, natBytes16, size, BitVec.ofNat_toNat, BitVec.setWidth_eq, bytes16_le16]
      rfl
    refine ⟨⟨seq, kind, body⟩, (more.drop (le16 lo hi).toNat).drop 2, ?_, ?_⟩
    · dsimp only
      omega
    · rw [framed, covered, List.append_assoc]
      exact congrArg (lo :: hi :: ·) parts

/-- A frame is not yet all there, fails a test, or is whole. -/
theorem scanHostFrame_cases (bytes : List Byte) : scanHostFrame bytes = .incomplete ∨
    (∃ lo hi more, bytes = lo :: hi :: more ∧ damaged lo hi more) ∨
    ∃ r rest, r.body.length ≤ 520 ∧ bytes = framed r ++ rest := by
  match bytes with
  | [] => exact .inl rfl
  | [_] => exact .inl rfl
  | lo :: hi :: more =>
    by_cases failed : damaged lo hi more
    · exact .inr (.inl ⟨lo, hi, more, rfl, failed⟩)
    simp only [damaged, not_or, Nat.not_lt, not_and, ne_eq, not_not] at failed
    obtain ⟨low, high, passed⟩ := failed
    by_cases there : (le16 lo hi).toNat + 2 ≤ more.length
    · exact .inr (.inr (framed_of_passed low high there (passed there)))
    · unfold scanHostFrame
      exact .inl ((if_neg (by omega)).trans (if_pos (by omega)))

theorem scanHostFrame_bad (h : scanHostFrame bytes = .bad) : ∃ lo hi more, bytes = lo :: hi :: more ∧ damaged lo hi more := by
  rcases scanHostFrame_cases bytes with scan | failed | ⟨r, rest, fits, rfl⟩
  · rw [scan] at h; cases h
  · exact failed
  · rw [scanHostFrame_framed fits] at h; cases h

theorem scanHostFrame_complete (h : scanHostFrame bytes = .complete r rest) :
    r.body.length ≤ 520 ∧ bytes = framed r ++ rest := by
  rcases scanHostFrame_cases bytes with scan | ⟨lo, hi, more, rfl, failed⟩ | ⟨r', rest', fits, rfl⟩
  · rw [scan] at h; cases h
  · rw [scanHostFrame_damaged failed] at h; cases h
  · rw [scanHostFrame_framed fits] at h; cases h; exact ⟨fits, rfl⟩

/-- A frame that fails its test fails it whatever comes behind. -/
theorem scanHostFrame_bad_append (h : scanHostFrame bytes = .bad) (later : List Byte) :
    scanHostFrame (bytes ++ later) = .bad := by
  obtain ⟨lo, hi, more, rfl, failed⟩ := scanHostFrame_bad h
  refine scanHostFrame_damaged (more := more ++ later) (failed.imp_right (Or.imp_right fun ⟨there, crc⟩ => ⟨?_, ?_⟩))
  · rw [List.length_append]
    omega
  · rwa [List.take_append_of_le_length (by omega), List.drop_append_of_le_length (by omega),
      List.take_append_of_le_length (by rw [List.length_drop]; omega)]

/-- A whole frame leaves what comes behind it. -/
theorem scanHostFrame_complete_append (h : scanHostFrame bytes = .complete r rest) (later : List Byte) :
    scanHostFrame (bytes ++ later) = .complete r (rest ++ later) := by
  obtain ⟨fits, rfl⟩ := scanHostFrame_complete h
  rw [List.append_assoc, scanHostFrame_framed fits]

theorem length_rest_le (h : scanHostFrame bytes = .complete r rest) : rest.length ≤ bytes.length := by
  obtain ⟨-, rfl⟩ := scanHostFrame_complete h
  rw [List.length_append]
  omega

end

/-! ### The hunter over a run of bytes (R168, R169) -/

/-- What the hunter finds in a run of bytes, and what it keeps of it. -/
def heard (gap : Bool) (bytes : List Byte) : List Request × List Byte := huntHost gap (bytes.length + 1) bytes

/-- The hunter reads a run of bytes marker by marker, and goes on behind a whole frame. -/
theorem hunt_induction {P : List Byte → Prop} (nil : P []) (other : ∀ b rest, b ≠ Config.marker → P rest → P (b :: rest))
    (incomplete : ∀ rest, scanHostFrame rest = .incomplete → P rest → P (Config.marker :: rest))
    (bad : ∀ rest, scanHostFrame rest = .bad → P rest → P (Config.marker :: rest))
    (complete : ∀ rest r more, scanHostFrame rest = .complete r more → P more → P (Config.marker :: rest))
    (bytes : List Byte) : P bytes := by
  induction hn : bytes.length using Nat.strongRecOn generalizing bytes with
  | ind n ih =>
    subst hn
    cases bytes with
    | nil => exact nil
    | cons b rest =>
      have later : ∀ more : List Byte, more.length ≤ rest.length → P more :=
        fun more le => ih more.length (Nat.lt_succ_of_le le) more rfl
      by_cases marker : b = Config.marker
      · subst marker
        cases scan : scanHostFrame rest with
        | incomplete => exact incomplete rest scan (later rest le_rfl)
        | bad => exact bad rest scan (later rest le_rfl)
        | complete r more => exact complete rest r more scan (later more (length_rest_le scan))
      · exact other b rest marker (later rest le_rfl)

section
variable {gap : Bool} {rest more : List Byte} {r : Request}

/-- Any fuel above the number of bytes finds the same. -/
theorem huntHost_fuel {bytes : List Byte} {a b : Nat} (ha : bytes.length < a) (hb : bytes.length < b) :
    huntHost gap a bytes = huntHost gap b bytes := by
  induction a generalizing bytes b with
  | zero => omega
  | succ a ih =>
    cases b with
    | zero => omega
    | succ b =>
      cases bytes with
      | nil => rfl
      | cons x rest =>
        simp only [List.length_cons] at ha hb
        have same : ∀ more : List Byte, more.length ≤ rest.length → huntHost gap a more = huntHost gap b more :=
          fun more le => ih (by omega) (by omega)
        unfold huntHost
        split
        · split
          · rw [same rest le_rfl]
          · exact same rest le_rfl
          · next scan => rw [same _ (length_rest_le scan)]
        · exact same rest le_rfl

theorem huntHost_eq {fuel : Nat} {bytes : List Byte} (h : bytes.length < fuel) : huntHost gap fuel bytes = heard gap bytes :=
  huntHost_fuel h (Nat.lt_succ_self _)

@[simp] theorem heard_nil : heard gap [] = ([], []) := rfl

theorem heard_other {b : Byte} (h : b ≠ Config.marker) (rest : List Byte) : heard gap (b :: rest) = heard gap rest :=
  if_neg h

/-- What the hunter makes of the bytes behind a marker, by what it reads there: a frame that is not yet all there is collected,
or read again when a gap discards it; a damaged one is read again; behind a whole one it reads on (R168, R169). -/
def heardBehind (gap : Bool) (rest : List Byte) : HostScan → List Request × List Byte
  | .incomplete => if gap then heard gap rest else ([], Config.marker :: rest)
  | .bad => heard gap rest
  | .complete r more => (r :: (heard gap more).1, (heard gap more).2)

theorem heard_marker (rest : List Byte) :
    heard gap (Config.marker :: rest) = heardBehind gap rest (scanHostFrame rest) := by
  rw [heard, huntHost, if_pos rfl]
  cases scan : scanHostFrame rest with
  | incomplete | bad => rfl
  | complete r more =>
    have le := length_rest_le scan
    dsimp only
    rw [huntHost_eq (by rw [List.length_cons]; omega)]
    rfl

theorem heard_collecting (h : scanHostFrame rest = .incomplete) :
    heard false (Config.marker :: rest) = ([], Config.marker :: rest) := by
  rw [heard_marker, h]
  rfl

theorem heard_gap (h : scanHostFrame rest = .incomplete) : heard true (Config.marker :: rest) = heard true rest := by
  rw [heard_marker, h]
  rfl

theorem heard_bad (h : scanHostFrame rest = .bad) : heard gap (Config.marker :: rest) = heard gap rest := by
  rw [heard_marker, h]
  rfl

theorem heard_complete (h : scanHostFrame rest = .complete r more) :
    heard gap (Config.marker :: rest) = (r :: (heard gap more).1, (heard gap more).2) := by
  rw [heard_marker, h]
  rfl

/-- Bytes without a marker are passed over. -/
theorem heard_noise {noise : List Byte} (h : Config.marker ∉ noise) (bytes : List Byte) :
    heard gap (noise ++ bytes) = heard gap bytes := by
  induction noise with
  | nil => rfl
  | cons b noise ih =>
    rw [List.mem_cons, not_or] at h
    rw [List.cons_append, heard_other (Ne.symm h.1), ih h.2]

theorem heard_quiet {noise : List Byte} (h : Config.marker ∉ noise) : heard gap noise = ([], []) := by
  have passed := heard_noise (gap := gap) h []
  rwa [List.append_nil] at passed

/-- A frame behind noise is received whole, and reading goes on behind it. -/
theorem heard_frame {seq kind : Byte} {body noise : List Byte} (fits : body.length ≤ 520) (quiet : Config.marker ∉ noise)
    (more : List Byte) : heard gap (noise ++ hostFrameBytes seq kind body ++ more) =
      (⟨seq, kind, body⟩ :: (heard gap more).1, (heard gap more).2) := by
  rw [List.append_assoc, heard_noise quiet, hostFrameBytes_eq, List.cons_append,
    heard_complete (scanHostFrame_framed fits more)]

/-- A frame alone behind noise. -/
theorem heard_lastFrame {seq kind : Byte} {body noise : List Byte} (fits : body.length ≤ 520)
    (quiet : Config.marker ∉ noise) :
    heard gap (noise ++ hostFrameBytes seq kind body) = ([⟨seq, kind, body⟩], []) := by
  have found := heard_frame (gap := gap) (seq := seq) (kind := kind) fits quiet []
  rwa [List.append_nil] at found

end

/-- Bytes may come in pieces: what the first piece leaves is read on with the second. -/
theorem heard_append (bytes later : List Byte) : heard false (bytes ++ later) =
    ((heard false bytes).1 ++ (heard false ((heard false bytes).2 ++ later)).1,
      (heard false ((heard false bytes).2 ++ later)).2) := by
  induction bytes using hunt_induction with
  | nil => rfl
  | other b rest marker ih => rw [List.cons_append, heard_other marker, heard_other marker, ih]
  | incomplete rest scan _ => rw [heard_collecting scan]; rfl
  | bad rest scan ih => rw [List.cons_append, heard_bad (scanHostFrame_bad_append scan later), heard_bad scan, ih]
  | complete rest r more scan ih =>
    rw [List.cons_append, heard_complete (scanHostFrame_complete_append scan later), heard_complete scan, ih]
    rfl

/-- After a gap nothing is being collected. -/
theorem heard_gap_hunting (bytes : List Byte) : (heard true bytes).2 = [] := by
  induction bytes using hunt_induction with
  | nil => rfl
  | other b rest marker ih => rw [heard_other marker, ih]
  | incomplete rest scan ih => rw [heard_gap scan, ih]
  | bad rest scan ih => rw [heard_bad scan, ih]
  | complete rest r more scan ih => rw [heard_complete scan]; exact ih

/-! ### Bytes and gaps on HRXD (R168 to R170) -/

section
variable {s : State}

/-- The part after the hunter has read a run of bytes. -/
def State.hears (s : State) (gap : Bool) (bytes : List Byte) : State := { s with host := { s.host with
  hunter := (heard gap bytes).2, holding := (heard gap bytes).1.foldl joinHolding s.host.holding } }

theorem execHostFrameReceived_awake (awake : s.heldInReset = false) (bytes : List Byte) :
    exec (.hostFrameReceived bytes) s = .next (s.hears false (s.host.hunter ++ bytes)) := unlessHeld_running awake _

theorem execGapDiscard_awake (awake : s.heldInReset = false) :
    exec .gapDiscard s = .next (s.hears true s.host.hunter) := unlessHeld_running awake _

/-- HUNTING, the part is the same when the bytes hold nothing. -/
theorem hears_nothing {gap : Bool} {bytes : List Byte} (hunting : s.host.hunter = []) (nothing : heard gap bytes = ([], [])) :
    s.hears gap bytes = s := by
  simp only [State.hears, nothing, List.foldl_nil, ← hunting]

theorem hears_one {gap : Bool} {bytes : List Byte} {r : Request} (one : heard gap bytes = ([r], [])) :
    s.hears gap bytes = { s with host := { s.host with hunter := [], holding := joinHolding s.host.holding r } } := by
  simp only [State.hears, one, List.foldl_cons, List.foldl_nil]

theorem joinHolding_room {holding : List Held} (r : Request) (room : holding.length < 4) :
    joinHolding holding r = holding ++ [⟨r, false⟩] := if_pos room

theorem joinHolding_full {holding : List Held} (r : Request) (full : 4 ≤ holding.length) :
    joinHolding holding r = holding := if_neg (Nat.not_lt.mpr full)

/-- Bytes in two pieces are heard as one run. -/
theorem hears_hears (a b : List Byte) : (s.hears false a).hears false ((s.hears false a).host.hunter ++ b) =
    s.hears false (a ++ b) := by
  simp only [State.hears, heard_append a b, List.foldl_append]

end

/-- Settles O3: a whole frame is read back and left behind, and hunting over a run of bytes goes on where a piece of it
ended. -/
theorem hostFramesAreReadBackInAnyPieces : Obligations.HostFramesAreReadBackInAnyPieces := by
  unfold Obligations.HostFramesAreReadBackInAnyPieces
  refine ⟨fun seq kind body noise more fits quiet => heard_frame fits quiet more, fun s a b awake =>
    ⟨_, _, execHostFrameReceived_awake awake a, execHostFrameReceived_awake (s := s.hears false _) awake b, ?_⟩⟩
  rw [execHostFrameReceived_awake awake, hears_hears, List.append_assoc]

/-- Settles O4: HUNTING, a whole frame is heard and a damaged one is read again behind its marker. -/
theorem hostFrameJoinsHoldingList : Obligations.HostFrameJoinsHoldingList := by
  unfold Obligations.HostFrameJoinsHoldingList
  intro s awake hunting
  have received : ∀ bytes, exec (.hostFrameReceived bytes) s = .next (s.hears false bytes) := fun bytes => by
    rw [execHostFrameReceived_awake awake, hunting, List.nil_append]
  have joins : ∀ {bytes r}, heard false bytes = ([r], []) → s.host.holding.length < 4 →
      exec (.hostFrameReceived bytes) s = .next { s with host := { s.host with
        holding := s.host.holding ++ [⟨r, false⟩] } } := fun one room => by
    rw [received, hears_one one, joinHolding_room _ room, ← hunting]
  have again : ∀ {lo hi more}, damaged lo hi more →
      heard false (Config.marker :: lo :: hi :: more) = heard false (lo :: hi :: more) :=
    fun failed => heard_bad (scanHostFrame_damaged failed)
  refine ⟨fun seq kind body fits room => joins (heard_lastFrame (noise := []) fits List.not_mem_nil) room,
    fun seq kind body fits full => ?_, fun lo hi more quiet failed => ?_, fun lo hi more failed =>
    ⟨?_, fun noise seq kind body quiet fits bytes room => joins ?_ room⟩⟩
  · have one : heard false (hostFrameBytes seq kind body) = _ := heard_lastFrame (noise := []) fits List.not_mem_nil
    rw [received, hears_one one, joinHolding_full _ full, ← hunting]
  · have failed : damaged lo hi more := failed.imp_right (Or.imp_right fun ⟨size, crc⟩ => ⟨size.ge, by
      rwa [List.take_of_length_le (l := more.drop _) (by rw [List.length_drop]; omega)]⟩)
    rw [received, hears_nothing hunting ((again failed).trans (heard_quiet quiet))]
  · rw [received, received, State.hears, again failed]
    rfl
  · rw [again failed, bytes, heard_lastFrame fits quiet]

/-- Settles O5: the frame being collected is read again behind its marker, and so is every frame the gap leaves
incomplete. -/
theorem gapDiscardReadsAgain : Obligations.GapDiscardReadsAgain := by
  unfold Obligations.GapDiscardReadsAgain
  intro s awake
  rw [execGapDiscard_awake awake]
  refine ⟨fun hunting => ?_, fun bytes collecting scan quiet => ?_,
    fun noise seq kind body collecting scan quiet fits => ?_, _, rfl, heard_gap_hunting _, ?_⟩
  · rw [hears_nothing hunting (by rw [hunting, heard_nil])]
  · rw [collecting, State.hears, heard_gap scan, heard_quiet quiet]
    rfl
  · rw [collecting, hears_one ((heard_gap scan).trans (heard_lastFrame fits quiet))]
  · simp only [State.hears, heard_gap_hunting]

end Sys2Proof.Machine
end

-- ==== Proofs: Request Decoder ====
section
/-! PROOFS. The Request Decoder: one request command at a time, its reply, the reply memory, and what waits behind a RESET
(R171 to R176, R178, R183). -/

namespace Sys2Proof.Machine

/-! ### A request command performs its request (R171) -/

/-- What performing the request of a request command does; no other command has a meaning here. -/
def performOf : Instr → State → Answer
  | .identify _ body => performIdentify body
  | .reset _ body => performReset body
  | .write _ body => performWrite body
  | .read _ body => performRead body
  | .pinMap _ body => performPinMap body
  | .submit _ body => performSubmit body
  | .suspend _ body => performSuspend body
  | .resume _ body => performResume body
  | .abort _ body => performAbort body
  | .jobStatus _ body => performJobStatus body
  | .laneConfig _ body => performLaneConfig body
  | .laneOpen _ body => performLaneOpen body
  | .laneReset _ body => performLaneReset body
  | .laneStatus _ body => performLaneStatus body
  | .fetch _ body => performFetch body
  | .ackNotices _ body => performAckNotices body
  | .rewindNotices _ body => performRewindNotices body
  | .unknownKindRequest _ kind _ => performUnknownKind kind
  | _ => (refuse · .unknownKind)

/-- A kind outside the catalogue is no request of a row of its own. -/
theorem requestOf_unknownKind {seq kind : Byte} {body : List Byte} {r : Request}
    (h : requestOf (.unknownKindRequest seq kind body) = some r) : kind ∉ requestKinds ∧ r = ⟨seq, kind, body⟩ := by
  simp only [requestOf] at h
  split at h
  · cases h
  · next outside => cases h; exact ⟨outside, rfl⟩

theorem replyKindOf_unknown {r : Request} (h : r.kind ∉ requestKinds) : replyKindOf r = 0xFF := if_neg h

theorem execUnknownKindRequest_outside {kind : Byte} (h : kind ∉ requestKinds) (seq : Byte) (body : List Byte) (s : State) :
    exec (.unknownKindRequest seq kind body) s = takeRequest s ⟨seq, kind, body⟩ 0xFF (performUnknownKind kind) := if_neg h

/-- A request command is its request taken by the Request Decoder, under the reply kind of its kind. -/
theorem exec_request {c : Instr} {r : Request} (h : requestOf c = some r) (s : State) :
    exec c s = takeRequest s r (replyKindOf r) (performOf c) := by
  cases c with
  | unknownKindRequest seq kind body =>
    obtain ⟨outside, rfl⟩ := requestOf_unknownKind h
    rw [execUnknownKindRequest_outside outside, replyKindOf_unknown outside]
    rfl
  | identify | reset | write | read | pinMap | submit | suspend | resume | abort | jobStatus | laneConfig | laneOpen
  | laneReset | laneStatus | fetch | ackNotices | rewindNotices => cases h; rfl
  | _ => cases h

section
variable {s : State} {r : Request} {k : Byte} {perform : State → Answer}

theorem takesNext_iff : takesNext s r = true ↔ resetAwaited s.host = false ∧ nextRequest s.host.holding = some r := by
  simp [takesNext]

theorem takeRequest_outOfTurn
    (h : s.heldInReset = true ∨ resetAwaited s.host = true ∨ nextRequest s.host.holding ≠ some r) :
    takeRequest s r k perform = .next s := by
  by_cases held : s.heldInReset = true
  · exact takeRequest_held held r k perform
  · have notNext : ¬ takesNext s r = true := by
      rw [takesNext_iff]
      rintro ⟨noReset, next⟩
      simp [held, noReset, next] at h
    unfold takeRequest
    rw [if_neg held, if_neg notNext]

/-- A request that a record answers is not performed (R173). -/
theorem takeRequest_duplicate {frame : HostFrame} (awake : s.heldInReset = false) (next : takesNext s r = true)
    (stored : storedReply s.host.memory r.seq r.kind = some frame) :
    takeRequest s r k perform = .next { s with host := { s.host with
      holding := markTaken s.host.holding, replies := s.host.replies ++ [⟨frame, false⟩] } } := by
  unfold takeRequest
  rw [if_neg (by simp [awake]), if_pos next]
  simp only [stored]

end

/-- Settles O6: every request command is a request taken, and out of its turn it is not. -/
theorem requestOutOfTurnIsNotTaken : Obligations.RequestOutOfTurnIsNotTaken := by
  unfold Obligations.RequestOutOfTurnIsNotTaken
  intro c r s request outOfTurn
  rw [exec_request request, takeRequest_outOfTurn outOfTurn]

/-- Settles O7: a record with the seq and kind answers in place of what the command would perform. -/
theorem duplicateGetsTheStoredReply : Obligations.DuplicateGetsTheStoredReply := by
  unfold Obligations.DuplicateGetsTheStoredReply
  intro c r s frame request awake noReset next stored
  rw [exec_request request, takeRequest_duplicate awake (takesNext_iff.mpr ⟨noReset, next⟩) stored]

/-! ### The reply memory (R172, R173) -/

section
variable {memory : List Record} {m : Record}

/-- The record added is the newest, and the only one with its seq. -/
theorem remember_eq_append (memory : List Record) (m : Record) :
    ∃ records, remember memory m = records ++ [m] ∧ ∀ x ∈ records, x.seq ≠ m.seq := by
  refine ⟨_, rfl, fun x stands => ?_⟩
  have kept : x ∈ memory.filter fun x => x.seq != m.seq := by
    split at stands
    · exact stands
    · exact List.mem_of_mem_tail stands
  simpa using (List.mem_filter.mp kept).2

theorem storedReply_remember (memory : List Record) (m : Record) :
    storedReply (remember memory m) m.seq m.kind = some m.reply := by
  obtain ⟨records, eq, other⟩ := remember_eq_append memory m
  have unfound : records.find? (fun x => x.seq == m.seq && x.kind == m.kind) = none :=
    List.find?_eq_none.mpr fun x stands => by simp [other x stands]
  simp [storedReply, eq, List.find?_append, unfound]

/-- Records with other seqs all stay when the new one is not a fifth. -/
theorem remember_room {kept : List Record} (filtered : (memory.filter fun x => x.seq != m.seq) = kept)
    (room : kept.length < 4) : remember memory m = kept ++ [m] := by
  unfold remember
  dsimp only
  rw [filtered, if_pos (show kept.length < Config.memoryCapacity from room)]

/-- Of four records with other seqs the oldest goes. -/
theorem remember_full {kept : List Record} (filtered : (memory.filter fun x => x.seq != m.seq) = kept)
    (full : kept.length = 4) : remember memory m = kept.tail ++ [m] := by
  unfold remember
  dsimp only
  rw [filtered, if_neg (by simp [full, Config.memoryCapacity])]

theorem filter_seq_ne (h : m.seq ∉ memory.map (·.seq)) : (memory.filter fun x => x.seq != m.seq) = memory :=
  List.filter_eq_self.mpr fun x stands => by
    simp only [bne_iff_ne]
    exact fun same => h (same ▸ List.mem_map_of_mem stands)

/-- Of records with different seqs, the one with the seq alone goes. -/
theorem filter_seq_replaced {before after : List Record} {old : Record}
    (distinct : ((before ++ old :: after).map (·.seq)).Nodup) (same : old.seq = m.seq) :
    ((before ++ old :: after).filter fun x => x.seq != m.seq) = before ++ after := by
  rw [List.map_append, List.map_cons, List.nodup_middle, List.nodup_cons, same, ← List.map_append] at distinct
  have rest := filter_seq_ne distinct.1
  rw [List.filter_append] at rest ⊢
  rw [List.filter_cons_of_neg (by simp [same]), rest]

end

/-- Settles O9: the record added comes behind the records kept, which are those with another seq, but for the oldest of
four. -/
theorem replyMemoryKeepsTheLastFour : Obligations.ReplyMemoryKeepsTheLastFour := by
  unfold Obligations.ReplyMemoryKeepsTheLastFour
  intro memory m few distinct
  refine ⟨storedReply_remember memory m, remember_length m few, remember_nodup m distinct,
    fun before old after eq same => ?_, fun fresh room => remember_room (filter_seq_ne fresh) room,
    fun fresh full => remember_full (filter_seq_ne fresh) full⟩
  subst eq
  refine remember_room (filter_seq_replaced distinct same) ?_
  simp only [List.length_append, List.length_cons] at few ⊢
  omega

/-! ### IDENTIFY and unknown kinds (R171, R175) -/

theorem performIdentify_nonempty {body : List Byte} (h : body ≠ []) (s : State) :
    performIdentify body s = refuse s .badLength := if_neg h

/-- Settles O10: neither request changes a state, so the reply is all they give. -/
theorem identifyAndUnknownKindsAreAnswered : Obligations.IdentifyAndUnknownKindsAreAnswered := by
  unfold Obligations.IdentifyAndUnknownKindsAreAnswered
  refine fun s seq kind body => ⟨fun h empty => ?_, fun h nonempty => ?_, fun h outside => ⟨?_, replyKindOf_unknown outside⟩⟩
  · subst empty
    exact takeRequest_replies h rfl rfl
  · exact takeRequest_replies h rfl (performIdentify_nonempty nonempty _)
  · rw [execUnknownKindRequest_outside outside]
    exact takeRequest_replies h (replyKindOf_unknown outside).symm rfl

/-! ### What no request touches (R171, R178) -/

/-- The reset pins and the queue of commands are as they were. -/
structure SameControl (s t : State) : Prop where
  heldInReset : t.heldInReset = s.heldInReset
  powerOnDue : t.powerOnDue = s.powerOnDue
  pending : t.pending = s.pending

namespace SameControl

theorem refl (s : State) : SameControl s s := ⟨rfl, rfl, rfl⟩

theorem trans {s t u : State} (h : SameControl s t) (h' : SameControl t u) : SameControl s u :=
  ⟨h'.heldInReset.trans h.heldInReset, h'.powerOnDue.trans h.powerOnDue, h'.pending.trans h.pending⟩

section
variable (s : State) (l : LaneId) (c : CtxId)

theorem modCtx (f : Context → Context) : SameControl s (s.modCtx c f) := ⟨rfl, rfl, rfl⟩

theorem freeCtx (r : EndReason) : SameControl s (s.freeCtx c r) :=
  ⟨freeCtx_heldInReset .., freeCtx_powerOnDue .., freeCtx_pending ..⟩

theorem select : SameControl s (s.select l) :=
  ⟨(select_leaves s l).heldInReset, (select_leaves s l).powerOnDue, (select_leaves s l).pending⟩

theorem selectIf (was : JobState) : SameControl s (s.selectIf was l) := by
  unfold State.selectIf
  split
  · exact select s l
  · exact refl s

theorem splice : SameControl s (s.splice l c) := by
  unfold State.splice
  refine trans ?_ (modCtx _ c _)
  split
  · exact ⟨rfl, rfl, rfl⟩
  · split
    · exact modCtx ..
    · exact refl s

theorem withdraw : SameControl s (s.withdraw c) := by
  rcases withdraw_cases s c with ⟨-, eq⟩ | ⟨-, eq⟩ | ⟨-, eq⟩ | eq <;> rw [eq]
  · exact ⟨rfl, rfl, rfl⟩
  · exact ⟨rfl, rfl, rfl⟩
  · exact splice ..
  · exact refl s

theorem endJobs (goes : Context → Bool) (reason : EndReason) : SameControl s (s.endJobs l goes reason) := by
  unfold State.endJobs
  generalize allCtxs = cs
  induction cs generalizing s with
  | nil => exact refl s
  | cons c cs ih =>
    rw [List.foldl_cons]
    refine trans ?_ (ih _)
    dsimp only
    split
    · exact (withdraw s c).trans (freeCtx ..)
    · exact refl s

theorem resetLane : SameControl s (s.resetLane l) := by
  have stopping : SameControl s (s.stopping l) := ⟨rfl, rfl, rfl⟩
  have ended := endJobs (s.stopping l) l (fun _ => true) .laneReset
  have stopped : ∀ u : State, SameControl u ((u.stopped l).postLaneState l .laneReset) := fun _ => ⟨rfl, rfl, rfl⟩
  rw [resetLane_eq]
  exact (stopping.trans ended).trans (stopped _)

end

end SameControl

/-! ### Every request has a reply (R171, R183) -/

/-- The answer to a request performed begins with a status code, leaves the reset pins and the queue, and is followed by a
part reset or not. -/
structure Replies (s : State) (resets : Bool) (a : Answer) : Prop where
  status : ∃ st, a.body.head? = some (statusCode st)
  resets_eq : a.resets = resets
  control : SameControl s a.state

namespace Replies

theorem refuse (s : State) (st : Status) : Replies s false (refuse s st) := ⟨⟨st, rfl⟩, rfl, .refl s⟩

/-- A reply that leaves the state. -/
theorem reports (s : State) (st : Status) (fields : List Byte) :
    Replies s false { state := s, body := statusCode st :: fields } := ⟨⟨st, rfl⟩, rfl, .refl s⟩

theorem ok {s t : State} (same : SameControl s t) (fields : List Byte) :
    Replies s false { state := t, body := statusCode .ok :: fields } := ⟨⟨.ok, rfl⟩, rfl, same⟩

section
variable (body : List Byte) (s : State)

theorem onJob {act : CtxId → Answer} (h : ∀ c, Replies s false (act c)) : Replies s false (onJob body s act) := by
  unfold Machine.onJob
  split
  · exact refuse s _
  · split
    · exact refuse s _
    · exact h _

theorem onLane {act : LaneId → Answer} (h : ∀ l, Replies s false (act l)) : Replies s false (onLane body s act) := by
  unfold Machine.onLane
  split
  · split
    · exact refuse s _
    · exact h _
  · exact refuse s _

/-- A request whose body must be empty. -/
theorem emptyBody {a : Answer} (h : Replies s false a) :
    Replies s false (if body = [] then a else Machine.refuse s .badLength) := by
  split
  · exact h
  · exact refuse s _

/-- RESET with an empty body alone is followed by a part reset (R176). -/
theorem performReset : Replies s (decide (body = [])) (performReset body s) := by
  unfold Machine.performReset
  split
  · next empty => exact ⟨⟨.ok, rfl⟩, (decide_eq_true empty).symm, .refl s⟩
  · next nonempty => exact ⟨⟨.badLength, rfl⟩, (decide_eq_false nonempty).symm, .refl s⟩

theorem performWrite : Replies s false (performWrite body s) := by
  unfold Machine.performWrite
  split
  · dsimp only
    split
    · exact refuse s _
    · split
      · exact refuse s _
      · split
        · exact reports s _ _
        · exact ⟨⟨.ok, rfl⟩, rfl, rfl, rfl, rfl⟩
  · exact refuse s _

theorem performRead : Replies s false (performRead body s) := by
  unfold Machine.performRead
  split
  · dsimp only
    split
    · exact refuse s _
    · split
      · exact refuse s _
      · exact reports s _ _
  · exact refuse s _

theorem performSubmit : Replies s false (performSubmit body s) := by
  unfold Machine.performSubmit
  split
  · split
    · exact refuse s _
    · split
      · exact refuse s _
      · split
        · split
          · exact refuse s _
          · split
            · exact reports s _ _
            · split
              · exact refuse s _
              · split
                · exact refuse s _
                · have admitted : ∀ c l cls tag ds, SameControl s (s.admitJob c l cls tag ds) :=
                    fun _ _ _ _ _ => ⟨rfl, rfl, rfl⟩
                  exact ok ((admitted ..).trans (.select ..)) _
        · exact refuse s _
  · exact refuse s _

theorem suspendJob (c : CtxId) : Replies s false (suspendJob s c) := by
  unfold Machine.suspendJob
  split
  · exact ok ((SameControl.withdraw s c).trans (.modCtx ..)) _
  · exact ok ((SameControl.withdraw s c).trans (.modCtx ..)) _
  · exact ⟨⟨.pending, rfl⟩, rfl, rfl, rfl, rfl⟩
  all_goals exact refuse s _

theorem resumeJob (c : CtxId) : Replies s false (resumeJob s c) := by
  unfold Machine.resumeJob
  split
  · have joined : SameControl s (s.joinTail c) := ⟨rfl, rfl, rfl⟩
    exact ok (joined.trans (.select ..)) _
  · split
    · exact ok (.modCtx ..) _
    · exact refuse s _
  all_goals exact refuse s _

theorem abortJob (c : CtxId) : Replies s false (abortJob s c) := by
  unfold Machine.abortJob
  split
  · exact refuse s _
  · have withdrawn := SameControl.withdraw s c
    split
    · have aborting : ∀ f g, SameControl (s.withdraw c) (((s.withdraw c).modCtx c f).modTx (s.ctx c).lane g) :=
        fun _ _ => ⟨rfl, rfl, rfl⟩
      exact ok ((withdrawn.trans (aborting ..)).trans (.selectIf ..)) _
    · exact ok ((withdrawn.trans (.freeCtx ..)).trans (.selectIf ..)) _

theorem performLaneConfig : Replies s false (performLaneConfig body s) := by
  unfold Machine.performLaneConfig
  split
  · split
    · exact refuse s _
    · split
      · exact refuse s _
      · split
        · exact ⟨⟨.ok, rfl⟩, rfl, rfl, rfl, rfl⟩
        · exact ⟨⟨.ok, rfl⟩, rfl, rfl, rfl, rfl⟩
        all_goals exact refuse s _
  · exact refuse s _

theorem performLaneOpen : Replies s false (performLaneOpen body s) := onLane body s fun l => by
  split
  · exact ⟨⟨.ok, rfl⟩, rfl, rfl, rfl, rfl⟩
  · exact ⟨⟨.ok, rfl⟩, rfl, rfl, rfl, rfl⟩
  all_goals exact refuse s _

theorem performFetch : Replies s false (performFetch body s) := onLane body s fun l => by
  split
  · exact refuse s _
  · exact ⟨⟨.ok, rfl⟩, rfl, rfl, rfl, rfl⟩

theorem performAckNotices : Replies s false (performAckNotices body s) := by
  unfold Machine.performAckNotices
  split
  · split
    · exact refuse s _
    · exact ⟨⟨.ok, rfl⟩, rfl, rfl, rfl, rfl⟩
  · exact refuse s _

end

end Replies

/-- Every request performed gives a reply, and a part reset follows RESET with an empty body alone (R171, R176, R183). -/
theorem performOf_replies {c : Instr} {r : Request} (h : requestOf c = some r) (s : State) :
    Replies s (decide (r.kind = 0x02 ∧ r.body = [])) (performOf c s) := by
  cases c with
  | identify seq body => cases h; exact .emptyBody body s (.reports s .ok _)
  | reset seq body =>
    cases h
    rw [show decide ((0x02 : Byte) = 0x02 ∧ body = []) = decide (body = []) by simp]
    exact .performReset body s
  | write seq body => cases h; exact .performWrite body s
  | read seq body => cases h; exact .performRead body s
  | pinMap seq body => cases h; exact .emptyBody body s (.reports s .ok _)
  | submit seq body => cases h; exact .performSubmit body s
  | suspend seq body => cases h; exact .onJob body s (.suspendJob s)
  | resume seq body => cases h; exact .onJob body s (.resumeJob s)
  | abort seq body => cases h; exact .onJob body s (.abortJob s)
  | jobStatus seq body => cases h; exact .onJob body s fun c => .reports s .ok _
  | laneConfig seq body => cases h; exact .performLaneConfig body s
  | laneOpen seq body => cases h; exact .performLaneOpen body s
  | laneReset seq body => cases h; exact .onLane body s fun l => .ok (.resetLane s l) _
  | laneStatus seq body => cases h; exact .onLane body s fun l => .reports s .ok _
  | fetch seq body => cases h; exact .performFetch body s
  | ackNotices seq body => cases h; exact .performAckNotices body s
  | rewindNotices seq body => cases h; exact .emptyBody body s ⟨⟨.ok, rfl⟩, rfl, rfl, rfl, rfl⟩
  | unknownKindRequest seq kind body =>
    obtain ⟨outside, rfl⟩ := requestOf_unknownKind h
    have notReset : kind ≠ 0x02 := by
      rintro rfl
      exact outside (by decide)
    rw [decide_eq_false fun reset => notReset reset.1]
    exact .reports s .unknownKind _
  | _ => cases h

/-- Performing a request leaves the host link. -/
theorem performOf_host (c : Instr) (s : State) : (performOf c s).state.host = s.host := by
  have step : NoticeStep s (performOf c s).state := by
    cases c with
    | identify seq body | reset seq body | pinMap seq body => exact .emptyBody body s (.refl s)
    | write seq body => exact .performWrite body s
    | read seq body => exact .performRead body s
    | submit seq body => exact .performSubmit body s
    | suspend seq body => exact .onJob body s (.suspendJob s)
    | resume seq body => exact .onJob body s (.resumeJob s)
    | abort seq body => exact .onJob body s (.abortJob s)
    | jobStatus seq body => exact .onJob body s fun _ => .refl s
    | laneConfig seq body => exact .performLaneConfig body s
    | laneOpen seq body => exact .performLaneOpen body s
    | laneReset seq body => exact .onLane body s (.resetLane s)
    | laneStatus seq body => exact .onLane body s fun _ => .refl s
    | fetch seq body => exact .performFetch body s
    | ackNotices seq body => exact .performAckNotices body s
    | rewindNotices seq body => exact .performRewindNotices body s
    | _ => exact .refl s
  exact step.host

/-- Settles O8: performing the request gives the reply, and the decoder records it and has taken the request. -/
theorem everyRequestIsAnsweredOnce : Obligations.EveryRequestIsAnsweredOnce := by
  unfold Obligations.EveryRequestIsAnsweredOnce
  intro c r s request h
  obtain ⟨⟨st, status⟩, resets, held, due, pending⟩ := performOf_replies request s.taking
  refine ⟨_, _, _, st, (exec_request request s).trans (takeRequest_performs h rfl (performOf_host c _)), status, rfl, ?_,
    held, due, pending⟩
  rw [resets, decide_eq_true_iff]

/-! ### A RESET's reply is awaited (R176, R178) -/

theorem resetAwaited_iff {h : HostLink} :
    resetAwaited h = true ↔ (∃ p ∈ h.replies, p.resets = true) ∨ ∃ bytes, h.out = .reply bytes true := by
  unfold resetAwaited
  rw [Bool.or_eq_true, List.any_eq_true]
  refine or_congr_right ?_
  cases h.out <;> simp

/-- Only the pending replies and the frame on HTXD count. -/
theorem resetAwaited_congr {h h' : HostLink} (replies : h'.replies = h.replies) (out : h'.out = h.out) :
    resetAwaited h' = resetAwaited h := by
  unfold resetAwaited
  rw [replies, out]

section
variable {s t : State}

theorem unlessHeld_host {e : Host.Outcome State Fault Refusal} (h : unlessHeld s e = .next t)
    (he : e = .next t → t.host = s.host) : t.host = s.host := by
  rcases unlessHeld_next.mp h with ⟨-, rfl⟩ | ⟨-, h⟩
  · rfl
  · exact he h

theorem onFrame_host {l : LaneId} {frame : List Byte} {owner : State → Except Fault State}
    (h : onFrame s l frame owner = .next t) (ho : ∀ v, owner v = .ok t → NoticeStep v t) : t.host = s.host := by
  rcases onFrame_next h with rfl | ⟨u, hu, ok⟩
  · rfl
  · rcases handOn_some hu with rfl | ⟨rx, rfl⟩
    · exact (ho _ ok).host
    · exact (ho _ ok).host

/-- The transmitter begins the oldest pending reply, which takes with it what it is followed by. -/
theorem execReplySend_awaits (awaited : resetAwaited s.host = true) (h : execReplySend s = .next t) :
    resetAwaited t.host = true := by
  rcases unlessHeld_next.mp h with ⟨-, rfl⟩ | ⟨-, e⟩
  · exact awaited
  · split at e
    · next idle pending =>
      cases e
      rw [resetAwaited_iff, idle, pending] at awaited
      rw [resetAwaited_iff]
      rcases awaited with ⟨p, first | ⟨_, later⟩, resets⟩ | ⟨bytes, sending⟩
      · exact .inr ⟨_, congrArg _ resets⟩
      · exact .inl ⟨p, later, resets⟩
      · cases sending
    · cases e; exact awaited

/-- A frame that leaves HTXD and is no RESET's reply leaves the reply awaited that was. -/
theorem resetAwaited_idle {h : HostLink} {holding : List Held} (awaited : resetAwaited h = true)
    (other : ∀ bytes, h.out ≠ .reply bytes true) : resetAwaited { h with out := .idle, holding := holding } = true := by
  rw [resetAwaited_iff] at awaited ⊢
  rcases awaited with waits | ⟨bytes, sending⟩
  · exact .inl waits
  · exact absurd sending (other bytes)

theorem execReplySent_awaits (awaited : resetAwaited s.host = true) (h : execReplySent s = .next t) :
    resetAwaited t.host = true := by
  rcases unlessHeld_next.mp h with ⟨-, rfl⟩ | ⟨-, e⟩
  · exact awaited
  · split at e
    · next sending => cases e; exact resetAwaited_idle awaited (by simp [sending])
    · cases e; exact awaited

theorem execNoticeFrameEnd_awaits (awaited : resetAwaited s.host = true) (h : execNoticeFrameEnd s = .next t) :
    resetAwaited t.host = true := by
  rcases unlessHeld_next.mp h with ⟨-, rfl⟩ | ⟨-, e⟩
  · exact awaited
  · split at e
    · next sending => cases e; exact resetAwaited_idle (holding := s.host.holding) awaited (by simp [sending])
    · cases e; exact awaited

/-- No notice begins while a reply is pending or on HTXD (R174). -/
theorem execNoticeSend_awaiting (awake : s.heldInReset = false) (awaited : resetAwaited s.host = true) :
    execNoticeSend s = .next s := by
  refine execNoticeSend_busy awake ?_
  rcases resetAwaited_iff.mp awaited with ⟨p, waits, -⟩ | ⟨bytes, sending⟩
  · exact .inr (List.ne_nil_of_mem waits)
  · exact .inl (by simp [sending])

/-- The commands of the host link that change what the transmitter carries or what waits for it. -/
def movesReplies : Instr → Bool
  | .replySend | .replySent | .noticeSend | .noticeFrameEnd | .hostRequestReset _ | .powerOn _ | .resetPin _
  | .resetnLow => true
  | _ => false

/-- Any other command that is no request leaves the pending replies and the transmitter. -/
theorem exec_leavesReplies {c : Instr} (noRequest : requestOf c = none) (still : movesReplies c = false)
    (h : exec c s = .next t) : t.host.replies = s.host.replies ∧ t.host.out = s.host.out := by
  suffices same : t.host = s.host ∨ ∃ gap bytes, t.host = huntOn s.host gap bytes by
    rcases same with same | ⟨gap, bytes, same⟩ <;> rw [same]
    · exact ⟨rfl, rfl⟩
    · exact ⟨rfl, rfl⟩
  cases c with
  | identify | reset | write | read | pinMap | submit | suspend | resume | abort | jobStatus | laneConfig | laneOpen
  | laneReset | laneStatus | fetch | ackNotices | rewindNotices => cases noRequest
  | replySend | replySent | noticeSend | noticeFrameEnd | hostRequestReset | powerOn | resetPin | resetnLow => cases still
  | unknownKindRequest seq kind body =>
    simp only [exec, execUnknownKindRequest] at h
    split at h
    · cases h; exact .inl rfl
    · next outside => simp [requestOf, outside] at noRequest
  | hostFrameReceived | gapDiscard =>
    rcases unlessHeld_next.mp h with ⟨-, rfl⟩ | ⟨-, e⟩
    · exact .inl rfl
    · cases e; exact .inr ⟨_, _, rfl⟩
  | hello l window id => exact .inl (onFrame_host h fun v ok => by cases ok; exact .takeHello v l window id)
  | ack l n => exact .inl (onFrame_host h fun v ok => by cases ok; exact .takeAck v l n)
  | nak l n => exact .inl (onFrame_host h fun v => .takeNak)
  | hold l => exact .inl (onFrame_host h fun v ok => by cases ok; exact .takeHold v l)
  | ready l => exact .inl (onFrame_host h fun v => .takeReady)
  | reply l bit tag code body =>
    simp only [exec, execReply] at h
    split at h
    · exact .inl (onFrame_host h fun v ok => by cases ok; exact .takeReply v l bit _)
    · cases h; exact .inl rfl
  | laneFrameDiscard | laneFrameSend => exact .inl (unlessHeld_host h fun e => by cases e; rfl)
  | probeTimerExpiry l => exact .inl (unlessHeld_host h fun e => by cases e; exact (NoticeStep.probeExpiry s l).host)
  | holdTimerExpiry l => exact .inl (unlessHeld_host h fun e => by cases e; exact (NoticeStep.holdExpiry s l).host)
  | ackTimerExpiry l => exact .inl (unlessHeld_host h fun e => (NoticeStep.ackExpiry (outcomeOf_next.mp e)).host)
  | dataCut l => exact .inl (unlessHeld_host h fun e => (NoticeStep.dataCut (outcomeOf_next.mp e)).host)
  | cancelCut l => exact .inl (unlessHeld_host h fun e => by cases e; exact (NoticeStep.cancelCut s l).host)

/-- A RESET's reply stays awaited through every command but a part reset, unless RESETN goes low (R176, R178). -/
theorem exec_awaits {c : Instr} (awake : s.heldInReset = false) (awaited : resetAwaited s.host = true)
    (other : ∀ straps, c ≠ .hostRequestReset straps ∧ c ≠ .powerOn straps ∧ c ≠ .resetPin straps)
    (h : exec c s = .next t) : t.heldInReset = true ∨ resetAwaited t.host = true := by
  cases request : requestOf c with
  | some r =>
    rw [requestOutOfTurnIsNotTaken c r s request (.inr (.inl awaited))] at h
    cases h
    exact .inr awaited
  | none =>
    cases moves : movesReplies c with
    | false =>
      obtain ⟨replies, out⟩ := exec_leavesReplies request moves h
      exact .inr ((resetAwaited_congr replies out).trans awaited)
    | true =>
      cases c with
      | replySend => exact .inr (execReplySend_awaits awaited h)
      | replySent => exact .inr (execReplySent_awaits awaited h)
      | noticeSend =>
        cases (execNoticeSend_awaiting awake awaited).symm.trans h
        exact .inr awaited
      | noticeFrameEnd => exact .inr (execNoticeFrameEnd_awaits awaited h)
      | resetnLow =>
        cases (execResetnLow_running awake).symm.trans h
        exact .inl rfl
      | hostRequestReset straps => exact absurd rfl (other straps).1
      | powerOn straps => exact absurd rfl (other straps).2.1
      | resetPin straps => exact absurd rfl (other straps).2.2
      | _ => cases moves

end

/-- Settles O11: the RESET's reply is pending with its mark, and no command but a part reset takes the mark away. -/
theorem resetRequestBlocksTheDecoder : Obligations.ResetRequestBlocksTheDecoder := by
  unfold Obligations.ResetRequestBlocksTheDecoder
  refine ⟨fun s seq body h => ⟨fun empty => ⟨_, ?_, rfl, ?_⟩, fun nonempty => ?_⟩,
    fun s blocked => ⟨fun c r request => ?_, fun c t other next => ?_⟩⟩
  · subst empty
    exact takeRequest_performs h rfl rfl
  · exact resetAwaited_iff.mpr (.inl ⟨_, List.mem_append_right _ List.mem_cons_self, rfl⟩)
  · exact takeRequest_replies h rfl (if_neg nonempty)
  · exact requestOutOfTurnIsNotTaken c r s request (blocked.imp_right .inl)
  · cases held : s.heldInReset with
    | true =>
      cases (exec_held held fun straps => (other straps).2).symm.trans next
      exact .inl held
    | false => exact exec_awaits held (blocked.resolve_left (by simp [held])) other next

end Sys2Proof.Machine
end

-- ==== Proofs: Example frames ====
section
/-! PROOFS. The check values of the CRC and the example frames of the spec (R180, R181, R185). -/

namespace Sys2Proof.Machine

/-- A host link frame on the line, once the CRC over its length, seq, kind and body is known (R180, R181). -/
theorem hostFrameBytes_of_crc {seq kind : Byte} {body covered : List Byte} {crc : Word16}
    (covers : hostCovered seq kind body = covered) (value : crc16 covered = crc) :
    hostFrameBytes seq kind body = Config.marker :: (covered ++ bytes16 crc) := by
  rw [hostFrameBytes, covers, crcBytes, value]

/-- The CRC that R181 gives for its IDENTIFY request. -/
theorem identify_crc : crc16 [0x02, 0x00, 0x05, 0x01] = 0x867C := by decide +kernel

/-- R181's IDENTIFY request: the four bytes the CRC covers, and the CRC low byte first. -/
theorem identify_bytes : hostFrameBytes 5 0x01 [] = [0x7E, 0x02, 0x00, 0x05, 0x01, 0x7C, 0x86] := by
  have covers : hostCovered 5 0x01 [] = [0x02, 0x00, 0x05, 0x01] := by decide
  have lowFirst : bytes16 0x867C = [0x7C, 0x86] := by decide
  rw [hostFrameBytes_of_crc covers identify_crc, lowFirst]
  rfl

/-- Settles O2: the check values and the CRC of the IDENTIFY request are evaluated, and the frames are formed around them. -/
theorem crcAndExampleFrames : Obligations.CrcAndExampleFrames := by
  unfold Obligations.CrcAndExampleFrames
  have digits : crc16 [0x31, 0x32, 0x33, 0x34, 0x35, 0x36, 0x37, 0x38, 0x39] = 0x29B1 := by decide +kernel
  have probeType : crc16 [0x01] = 0xF1D1 := by decide
  exact ⟨digits, probeType, identify_bytes, probe_bytes⟩

end Sys2Proof.Machine
end

-- ==== Proofs: Front command ====
section
/-! PROOFS. A step and the queue of commands (DESIGN CHOICE, log 17). -/

namespace Sys2Proof.Machine

/-- A state with a command waiting runs the one at the front of its queue, on the state with the queue's rest. -/
theorem step_of_pending {s : State} {c : Instr} {rest : List Instr} (front : s.pending = c :: rest) :
    step s = exec c { s with pending := rest } := by
  rw [step, front]

/-- Settles O1: the queue begins with the command, and writing its rest over it leaves nothing of the queue before. -/
theorem stepRunsTheFrontCommand : Obligations.StepRunsTheFrontCommand := by
  unfold Obligations.StepRunsTheFrontCommand
  intro c rest s
  have front : ({ s with pending := c :: rest } : State).pending = c :: rest := rfl
  exact step_of_pending front

end Sys2Proof.Machine
end
